-- ==== Sys2Proof/Word.lean ====
section
/-! DEFINITION. The word types of the block: bytes of the two streams and the register widths of
10_state.md R24 to R27. Every quantity is unsigned (00_scope.md R8). -/

namespace Sys2Proof

/-- A byte of RX, TX or a buffer (R8). -/
abbrev Byte := BitVec 8

/-- `bh_fmt`, 2 bits (R24, `FMT_BITS` of R5). -/
abbrev Fmt := BitVec 2

/-- `bh_csid`, 17 bits (R24, `CSID_BITS` of R5). -/
abbrev Csid := BitVec 17

/-- `timestamp`, `timestamp_delta`, `message_length`: 24 bits (R25, `TS_BITS`, `LEN_BITS`). -/
abbrev Word24 := BitVec 24

/-- `message_stream_id` and the handshake time fields: 32 bits (R25, R28). -/
abbrev Word32 := BitVec 32

/-- A random block of C1, S1, C2 or S2: 1528 bytes (`HS_RANDOM_LEN` of R5). -/
abbrev RandomBlock := Vector Byte 1528

end Sys2Proof
end

