-- ==== Sys2Proof/Config.lean ====
section
/-! DEFINITION. The constants of 00_scope.md R5 and the free values: what the spec leaves open, as
constants with no body. The two parameters of R6 are fields of State; their defaults stand here. -/

namespace Sys2Proof.Config

/-- `S0_VERSION` (R5): the byte the server sends as S0. -/
def s0Version : Byte := 3

/-- `HS_PKT_LEN` (R5): bytes of each of C1, S1, C2, S2. -/
def hsPktLen : Nat := 1536

/-- `CSID_MIN` (R5): the smallest decodable `chunk_stream_id`. -/
def csidMin : Nat := 2

/-- `CSID_MAX` (R5): the largest decodable `chunk_stream_id`. -/
def csidMax : Nat := 65599

/-- `CST_ENTRIES` (R5): the index space of the register file, 0 to 65599. -/
def cstEntries : Nat := 65600

/-- `MAX_MSG_LEN` (R5): the largest payload of one chunk. -/
def maxMsgLen : Nat := 16777215

/-- The default of the parameter `KNOWN_TYPES` (R5, R209). -/
def defaultKnownTypes : List Byte := [1, 3, 5, 6, 8, 9, 15, 16, 17, 18, 19, 20, 22]

/-- The default of the parameter `IO_DEADLINE` (R5): none. -/
def defaultIoDeadline : Option Nat := none

/-- FREE VALUE (R113, U3): what TIME answers at the `HS.S1` of connection `conn`. Log 12. -/
opaque drawTime (conn : Nat) : Word32

/-- FREE VALUE (R113, U4): byte `i` of what RNG answers at the `HS.S1` of connection `conn`. Log 12. -/
opaque drawByte (conn i : Nat) : Byte

/-- FREE VALUE (R28, C5, U15): byte `i` of handshake buffer number `which` once `hs_state = Done`.
It may depend on what the buffer held. Log 8. -/
opaque discardedByte (conn which : Nat) (held : List Byte) (i : Nat) : Byte

/-- FREE VALUE (R52, V5): how many bytes of a failed write reached the peer (taken modulo one more
than its length). Log 13. -/
opaque sentCount (conn : Nat) (attempted : List Byte) : Nat

/-- FREE VALUE (R36, R226, U14): the content of register number `which` after an ended connection
released its state, as a number. It may depend on what the register held. Log 7. -/
opaque releasedWord (conn which held : Nat) : Nat

/-- FREE VALUE (R36, R226, U14): the bytes of a buffer of any length after the release. Log 7. -/
opaque releasedBytes (conn which : Nat) (held : List Byte) : List Byte

/-- FREE VALUE (R36, R226, U14): the register file after the release, before it is brought into
canonical form. Log 7. -/
opaque releasedCells (conn : Nat) (held : List (Nat × Byte)) : List (Nat × Byte)

end Sys2Proof.Config
end

