-- ==== Sys2Proof/Syntax.lean ====
section
/-! DEFINITION. The operations of 30_encoding.md R94 (one constructor each, `BH1`'s five bit patterns
of R82 being one operation), the host's calls of 45_session.md R208, and the wire units of the
notation of R95. -/

namespace Sys2Proof

/-- `hs_state` (10_state.md R21), in the source's order. The value 7 is never taken and has no
constructor (V11). -/
inductive HsState where
  | awaitC0 | sendS0 | sendS1 | awaitC1 | sendS2 | awaitC2 | done
  deriving DecidableEq, Repr

/-- `ck_state` (10_state.md R22). Values 9 to 15 are never taken (V11). -/
inductive CkState where
  | idle | bh0 | bhx | mh | payload | resolve | update | dispatch | handler
  deriving DecidableEq, Repr

/-- `bh_form` (R24): the number of bytes of the basic header. -/
inductive BhForm where
  | one | two | three
  deriving DecidableEq, Repr

/-- The message header's five optional fields (10_state.md R25, R155): `none` is "absent", which is
not zero. `timestamp` and `timestamp_delta` are two fields. -/
structure MsgHeader where
  /-- `mh_ts` with `mh_ts_p`. -/
  ts : Option Word24
  /-- `mh_tsd` with `mh_tsd_p`. -/
  tsd : Option Word24
  /-- `mh_len` with `mh_len_p`. -/
  len : Option Word24
  /-- `mh_type` with `mh_type_p`. -/
  type : Option Byte
  /-- `mh_msid` with `mh_msid_p`. -/
  msid : Option Word32
  deriving DecidableEq, Repr

/-- The names of the 32 operations (R94): what `fault.op` holds (R23). -/
inductive Op where
  | hsC0 | hsS0 | hsS1 | hsC1 | hsS2 | hsC2 | hsDone
  | bhB0 | bh1 | bh2 | bh3
  | encBh1 | encBh2 | encBh3
  | mh0 | mh1 | mh2 | mh3
  | encMh0 | encMh1 | encMh2 | encMh3
  | payloadLen | payloadNone
  | resolveDirect | resolveInherit | update
  | dispatch | drop
  | htxWrite | htxFlush | ret
  deriving DecidableEq, Repr

/-- The operations with their operands. An operation has an operand only where its rule names one:
`HS.S1` its two free inputs (R113), the `ENC.*` calls theirs (R138 to R140, R156 to R159; numbers of
any size, since a call may be out of range, R141, R160), `HTX.WRITE` its bytes (R203). What an
operation reads from RX is not an operand but the effect of its `RxRead`. -/
inductive Instr where
  | hsC0
  | hsS0
  | hsS1 (t : Word32) (r : RandomBlock)
  | hsC1
  | hsS2
  | hsC2
  | hsDone
  | bhB0
  | bh1
  | bh2
  | bh3
  | encBh1 (fmt csid : Nat)
  | encBh2 (fmt csid : Nat)
  | encBh3 (fmt csid : Nat)
  | mh0
  | mh1
  | mh2
  | mh3
  | encMh0 (ts len type msid : Nat)
  | encMh1 (tsd len type : Nat)
  | encMh2 (tsd : Nat)
  | encMh3
  | payloadLen
  | payloadNone
  | resolveDirect
  | resolveInherit
  | update
  | dispatch
  | drop
  | htxWrite (bytes : List Byte)
  | htxFlush
  | ret
  deriving DecidableEq, Repr

/-- What the host may ask of the block (R208): the `ENC.*` calls, and HTX writes, flushes and
`RETURN`. -/
inductive HostCall where
  | encBh1 (fmt csid : Nat)
  | encBh2 (fmt csid : Nat)
  | encBh3 (fmt csid : Nat)
  | encMh0 (ts len type msid : Nat)
  | encMh1 (tsd len type : Nat)
  | encMh2 (tsd : Nat)
  | encMh3
  | write (bytes : List Byte)
  | flush
  | ret
  deriving DecidableEq, Repr

/-- The wire units, in the notation of R95. -/
inductive WireUnit where
  | c0 (v : Byte)
  | c1 (time zero : Word32) (random : RandomBlock)
  | c2 (time time2 : Word32) (random : RandomBlock)
  | s0
  | s1 (time : Word32) (random : RandomBlock)
  | s2 (time : Word32) (random : RandomBlock)
  | bh (form : BhForm) (fmt : Fmt) (csid : Nat)
  | mh0 (ts len : Word24) (type : Byte) (msid : Word32)
  | mh1 (tsd len : Word24) (type : Byte)
  | mh2 (tsd : Word24)
  | mh3
  | payload (bytes : List Byte)
  deriving DecidableEq, Repr

/-- What fixes the format of the next unit (R80): the control state, and for the message header
`bh_fmt`, for the payload the length already decoded. -/
inductive UnitKind where
  | c0 | c1 | c2 | s0 | s1 | s2 | bh
  | mh (fmt : Fmt)
  | payload (len : Nat)
  deriving DecidableEq, Repr

/-- Everything the choice of the block's next operation depends on (the `select` entries of
opcode_table.json): the fault code, the control state, and the data that selects a successor
(R38). -/
structure Selector where
  /-- `fault.code = None`. -/
  live : Bool
  hs : HsState
  ck : CkState
  form : BhForm
  fmt : Fmt
  /-- `mh_len_p`. -/
  lenP : Bool
  /-- `mh_type_p`. -/
  typeP : Bool
  /-- `res_type` is in `KNOWN_TYPES`. -/
  known : Bool
  deriving DecidableEq, Repr

/-- Where an operation comes from: the block's own control state with the draws it would take, or a
call on the host port, an encoder call being named by the bytes it is to produce. -/
inductive Site where
  | own (c : Selector) (t : Word32) (r : RandomBlock)
  | callBh
  | callMh (fmt : Fmt)
  | callWrite
  | callFlush
  | callReturn
  deriving DecidableEq, Repr

/-- Why the decoder gives no operation, by name. -/
inductive Reject where
  /-- `fault.code` is not `None`: no operation is enabled (R23, R225). -/
  | failed
  /-- `ck_state = CK_HANDLER`: the block waits for the host's `RETURN` (R206, R238). -/
  | awaitsHost
  /-- Fewer bytes than the unit has (R80). -/
  | truncated
  /-- Bytes are left over where exactly one unit was given. -/
  | trailing
  /-- A byte that is constant in the unit's format has another value (S0, S1, S2: R89 to R91). -/
  | badConstant
  /-- No row of opcode_table.json has the given number of bits with these bytes. -/
  | noSuchRow
  deriving DecidableEq, Repr

/-- A decoder's answer. -/
inductive Decoded (α : Type) where
  | ok (a : α)
  | reject (r : Reject)
  deriving DecidableEq, Repr

end Sys2Proof
end

