-- ==== Sys2Proof/WellFormed.lean ====
section
/-! DEFINITION. The operand ranges of the operations: 41_basic_header.md R138 to R141 and
42_message_header.md R156 to R160. An ill-formed encoder call is refused (R141, R160); every other
operation is well formed by its type. -/

namespace Sys2Proof

/-- The operand of `ENC.BH1` is in range (R138). -/
def encBh1Ok (fmt csid : Nat) : Bool := fmt ≤ 3 && 2 ≤ csid && csid ≤ 63

/-- The operand of `ENC.BH2` is in range (R139). -/
def encBh2Ok (fmt csid : Nat) : Bool := fmt ≤ 3 && 64 ≤ csid && csid ≤ 319

/-- The operand of `ENC.BH3` is in range (R140). -/
def encBh3Ok (fmt csid : Nat) : Bool := fmt ≤ 3 && 64 ≤ csid && csid ≤ 65599

/-- The operands of `ENC.MH0` are in range (R156). -/
def encMh0Ok (ts len type msid : Nat) : Bool :=
  ts ≤ 16777215 && len ≤ 16777215 && type ≤ 255 && msid ≤ 4294967295

/-- The operands of `ENC.MH1` are in range (R157). -/
def encMh1Ok (tsd len type : Nat) : Bool := tsd ≤ 16777215 && len ≤ 16777215 && type ≤ 255

/-- The operand of `ENC.MH2` is in range (R158). -/
def encMh2Ok (tsd : Nat) : Bool := tsd ≤ 16777215

/-- An operation is well formed: the operands of an encoder call are in the ranges of its rule. -/
def Instr.wf : Instr → Bool
  | .hsC0 => true
  | .hsS0 => true
  | .hsS1 _ _ => true
  | .hsC1 => true
  | .hsS2 => true
  | .hsC2 => true
  | .hsDone => true
  | .bhB0 => true
  | .bh1 => true
  | .bh2 => true
  | .bh3 => true
  | .encBh1 fmt csid => encBh1Ok fmt csid
  | .encBh2 fmt csid => encBh2Ok fmt csid
  | .encBh3 fmt csid => encBh3Ok fmt csid
  | .mh0 => true
  | .mh1 => true
  | .mh2 => true
  | .mh3 => true
  | .encMh0 ts len type msid => encMh0Ok ts len type msid
  | .encMh1 tsd len type => encMh1Ok tsd len type
  | .encMh2 tsd => encMh2Ok tsd
  | .encMh3 => true
  | .payloadLen => true
  | .payloadNone => true
  | .resolveDirect => true
  | .resolveInherit => true
  | .update => true
  | .dispatch => true
  | .drop => true
  | .htxWrite _ => true
  | .htxFlush => true
  | .ret => true

/-- A wire unit is well formed: a basic header's id is one its form can spell (R82). -/
def WireUnit.wf : WireUnit → Bool
  | .bh .one _ csid => 2 ≤ csid && csid ≤ 63
  | .bh .two _ csid => 64 ≤ csid && csid ≤ 319
  | .bh .three _ csid => 64 ≤ csid && csid ≤ 65599
  | _ => true

end Sys2Proof
end

