-- ==== Sys2Proof/Decode.lean ====
section
/-! DEFINITION. From bytes and control state to operations and field values, and back:
30_encoding.md R80 to R97, the field assembly of R92, the byte orders of 20_memory.md R54 to R58, and
the encoders of R138 to R141 and R156 to R160. The decoders are total; what they do not accept they
reject by name. -/

namespace Sys2Proof

/-! ## Byte order (00_scope.md R8) -/

/-- `s[i]` of R8; a byte the sequence does not have reads as 0, which no caller reaches. -/
def byteAt (s : List Byte) (i : Nat) : Byte := s.getD i 0

/-- `be24` of R8. -/
def be24 (s : List Byte) : Word24 :=
  BitVec.ofNat 24 ((byteAt s 0).toNat * 65536 + (byteAt s 1).toNat * 256 + (byteAt s 2).toNat)

/-- `be32` of R8. -/
def be32 (s : List Byte) : Word32 :=
  BitVec.ofNat 32 ((byteAt s 0).toNat * 16777216 + (byteAt s 1).toNat * 65536
    + (byteAt s 2).toNat * 256 + (byteAt s 3).toNat)

/-- `le32` of R8. -/
def le32 (s : List Byte) : Word32 :=
  BitVec.ofNat 32 ((byteAt s 0).toNat + (byteAt s 1).toNat * 256 + (byteAt s 2).toNat * 65536
    + (byteAt s 3).toNat * 16777216)

/-- `to_be24` of R8, on `0 <= v < 2^24`. -/
def toBe24 (v : Nat) : List Byte :=
  [BitVec.ofNat 8 (v / 65536), BitVec.ofNat 8 (v / 256), BitVec.ofNat 8 v]

/-- `to_be32` of R8, on `0 <= v < 2^32`. -/
def toBe32 (v : Nat) : List Byte :=
  [BitVec.ofNat 8 (v / 16777216), BitVec.ofNat 8 (v / 65536), BitVec.ofNat 8 (v / 256),
    BitVec.ofNat 8 v]

/-- `to_le32` of R8, on `0 <= v < 2^32`. -/
def toLe32 (v : Nat) : List Byte :=
  [BitVec.ofNat 8 v, BitVec.ofNat 8 (v / 256), BitVec.ofNat 8 (v / 65536),
    BitVec.ofNat 8 (v / 16777216)]

/-! ## Basic header fields (R81, R82, R92 (a) to (e)) -/

/-- `fmt = b0[7:6]`. -/
def fmtOf (b0 : Byte) : Fmt := b0.extractLsb' 6 2

/-- `sel = b0[5:0]`. -/
def selOf (b0 : Byte) : BitVec 6 := b0.extractLsb' 0 6

/-- The form the selector picks (R81, R130): 0 is the 2-byte form, 1 the 3-byte form, 2 to 63 the
1-byte form. -/
def formOf (b0 : Byte) : BhForm :=
  if selOf b0 = 0 then .two else if selOf b0 = 1 then .three else .one

/-- BH1: `csid = sel` (R82, R131). -/
def csidOne (b0 : Byte) : Csid := BitVec.ofNat 17 (selOf b0).toNat

/-- BH2: `csid = second_byte + 64` (R82, R132). -/
def csidTwo (b1 : Byte) : Csid := BitVec.ofNat 17 (b1.toNat + 64)

/-- BH3: `csid = third_byte*256 + second_byte + 64` (R56, R82, R133). -/
def csidThree (b1 b2 : Byte) : Csid := BitVec.ofNat 17 (b2.toNat * 256 + b1.toNat + 64)

/-- How many bytes a form has (R24). -/
def BhForm.size : BhForm → Nat
  | .one => 1
  | .two => 2
  | .three => 3

/-- The number of an `hs_state` (R21). -/
def HsState.number : HsState → Nat
  | .awaitC0 => 0
  | .sendS0 => 1
  | .sendS1 => 2
  | .awaitC1 => 3
  | .sendS2 => 4
  | .awaitC2 => 5
  | .done => 6

/-- The number of a `ck_state` (R22). -/
def CkState.number : CkState → Nat
  | .idle => 0
  | .bh0 => 1
  | .bhx => 2
  | .mh => 3
  | .payload => 4
  | .resolve => 5
  | .update => 6
  | .dispatch => 7
  | .handler => 8

/-! ## Message header fields (R83 to R86, R92 (f) to (h)) -/

/-- MH0, 11 bytes: timestamp, length, type, stream id (R83, R151). -/
def decodeMh0 (h : List Byte) : MsgHeader where
  ts := some (be24 h)
  tsd := none
  len := some (be24 (h.drop 3))
  type := some (byteAt h 6)
  msid := some (le32 (h.drop 7))

/-- MH1, 7 bytes: delta, length, type (R84, R152). -/
def decodeMh1 (h : List Byte) : MsgHeader where
  ts := none
  tsd := some (be24 h)
  len := some (be24 (h.drop 3))
  type := some (byteAt h 6)
  msid := none

/-- MH2, 3 bytes: delta (R85, R153). -/
def decodeMh2 (h : List Byte) : MsgHeader where
  ts := none
  tsd := some (be24 h)
  len := none
  type := none
  msid := none

/-- MH3, no bytes: every field absent (R86, R154). -/
def decodeMh3 : MsgHeader where
  ts := none
  tsd := none
  len := none
  type := none
  msid := none

/-- `mh_size` of R177: 11, 7, 3, 0 bytes for `fmt` 0, 1, 2, 3. -/
def mhSize (fmt : Fmt) : Nat :=
  if fmt = 0 then 11 else if fmt = 1 then 7 else if fmt = 2 then 3 else 0

/-! ## The choice of the block's next operation (R80, R94, R110, R150; the `select` entries) -/

/-- The handshake operation of each `hs_state` (R110); in `Done` it is `HS.DONE`. -/
def selectHandshake (t : Word32) (r : RandomBlock) : HsState → Instr
  | .awaitC0 => .hsC0
  | .sendS0 => .hsS0
  | .sendS1 => .hsS1 t r
  | .awaitC1 => .hsC1
  | .sendS2 => .hsS2
  | .awaitC2 => .hsC2
  | .done => .hsDone

/-- `BH1`, `BH2` or `BH3` by `bh_form` (R131 to R133). -/
def selectBhx : BhForm → Instr
  | .one => .bh1
  | .two => .bh2
  | .three => .bh3

/-- `MH0` to `MH3` by `bh_fmt` (R150). -/
def selectMh (fmt : Fmt) : Instr :=
  if fmt = 0 then .mh0 else if fmt = 1 then .mh1 else if fmt = 2 then .mh2 else .mh3

/-- The one operation the block itself may run next. With `ck_state = CK_IDLE` (mode HANDSHAKE of
R231) it is the handshake's, else (mode SESSION) the chunk path's. `t` and `r` are the draws `HS.S1`
would take. -/
def select (c : Selector) (t : Word32) (r : RandomBlock) : Decoded Instr :=
  if c.live then
    match c.ck with
    | .idle => .ok (selectHandshake t r c.hs)
    | .bh0 => .ok .bhB0
    | .bhx => .ok (selectBhx c.form)
    | .mh => .ok (selectMh c.fmt)
    | .payload => .ok (if c.lenP then .payloadLen else .payloadNone)
    | .resolve => .ok (if c.typeP then .resolveDirect else .resolveInherit)
    | .update => .ok .update
    | .dispatch => .ok (if c.known then .dispatch else .drop)
    | .handler => .reject .awaitsHost
  else .reject .failed

/-- The operation a host call is (R208). -/
def HostCall.toInstr : HostCall → Instr
  | .encBh1 fmt csid => .encBh1 fmt csid
  | .encBh2 fmt csid => .encBh2 fmt csid
  | .encBh3 fmt csid => .encBh3 fmt csid
  | .encMh0 ts len type msid => .encMh0 ts len type msid
  | .encMh1 tsd len type => .encMh1 tsd len type
  | .encMh2 tsd => .encMh2 tsd
  | .encMh3 => .encMh3
  | .write bytes => .htxWrite bytes
  | .flush => .htxFlush
  | .ret => .ret

/-! ## Wire units (R80 to R91, R95) -/

/-- A sequence filled up with zeros and cut at `n` bytes has `n` bytes. -/
theorem fill_size (n : Nat) (s : List Byte) :
    ((s ++ List.replicate n 0).take n).toArray.size = n := by simp

/-- The random block in 1528 bytes (a shorter sequence is filled up with zeros; no caller has one). -/
def randomOf (s : List Byte) : RandomBlock :=
  ⟨((s ++ List.replicate 1528 0).take 1528).toArray, fill_size 1528 s⟩

/-- The 1536-byte packet at the front of `s`: time, second field, random block (R63). -/
def decodePacket (s : List Byte) : Decoded (Word32 × Word32 × RandomBlock) :=
  if s.length < 1536 then .reject .truncated
  else .ok (be32 s, be32 (s.drop 4), randomOf (s.drop 8))

/-- The basic header at the front of `s` (R81, R82). -/
def decodeBh : List Byte → Decoded (WireUnit × List Byte)
  | [] => .reject .truncated
  | b0 :: rest =>
    match formOf b0, rest with
    | .one, rest => .ok (.bh .one (fmtOf b0) (csidOne b0).toNat, rest)
    | .two, b1 :: rest => .ok (.bh .two (fmtOf b0) (csidTwo b1).toNat, rest)
    | .three, b1 :: b2 :: rest => .ok (.bh .three (fmtOf b0) (csidThree b1 b2).toNat, rest)
    | _, _ => .reject .truncated

/-- The message header of variant `fmt` at the front of `s` (R83 to R86). -/
def decodeMh (fmt : Fmt) (s : List Byte) : Decoded (WireUnit × List Byte) :=
  if s.length < mhSize fmt then .reject .truncated
  else if fmt = 0 then
    .ok (.mh0 (be24 s) (be24 (s.drop 3)) (byteAt s 6) (le32 (s.drop 7)), s.drop 11)
  else if fmt = 1 then .ok (.mh1 (be24 s) (be24 (s.drop 3)) (byteAt s 6), s.drop 7)
  else if fmt = 2 then .ok (.mh2 (be24 s), s.drop 3)
  else .ok (.mh3, s)

/-- The unit of kind `k` at the front of `s`, and the bytes after it. Inbound units reject nothing
but a short sequence (R93); the outbound S0, S1 and S2 also hold constants (R89 to R91). -/
def decodeUnit (k : UnitKind) (s : List Byte) : Decoded (WireUnit × List Byte) :=
  match k with
  | .c0 =>
    match s with
    | [] => .reject .truncated
    | v :: rest => .ok (.c0 v, rest)
  | .s0 =>
    match s with
    | [] => .reject .truncated
    | v :: rest => if v = Config.s0Version then .ok (.s0, rest) else .reject .badConstant
  | .c1 =>
    match decodePacket s with
    | .ok (t, z, r) => .ok (.c1 t z r, s.drop 1536)
    | .reject e => .reject e
  | .c2 =>
    match decodePacket s with
    | .ok (t, u, r) => .ok (.c2 t u r, s.drop 1536)
    | .reject e => .reject e
  | .s1 =>
    match decodePacket s with
    | .ok (t, z, r) => if z = 0 then .ok (.s1 t r, s.drop 1536) else .reject .badConstant
    | .reject e => .reject e
  | .s2 =>
    match decodePacket s with
    | .ok (t, z, r) => if z = 0 then .ok (.s2 t r, s.drop 1536) else .reject .badConstant
    | .reject e => .reject e
  | .bh => decodeBh s
  | .mh fmt => decodeMh fmt s
  | .payload len =>
    if s.length < len then .reject .truncated else .ok (.payload (s.take len), s.drop len)

/-- The encoder call that produces a given header unit: the `ENC.*` rows of opcode_table.json read
backwards. -/
def encCallOf : WireUnit → Decoded Instr
  | .bh .one fmt csid => .ok (.encBh1 fmt.toNat csid)
  | .bh .two fmt csid => .ok (.encBh2 fmt.toNat csid)
  | .bh .three fmt csid => .ok (.encBh3 fmt.toNat csid)
  | .mh0 ts len type msid => .ok (.encMh0 ts.toNat len.toNat type.toNat msid.toNat)
  | .mh1 tsd len type => .ok (.encMh1 tsd.toNat len.toNat type.toNat)
  | .mh2 tsd => .ok (.encMh2 tsd.toNat)
  | .mh3 => .ok .encMh3
  | .c0 _ => .reject .noSuchRow
  | .c1 _ _ _ => .reject .noSuchRow
  | .c2 _ _ _ => .reject .noSuchRow
  | .s0 => .reject .noSuchRow
  | .s1 _ _ => .reject .noSuchRow
  | .s2 _ _ => .reject .noSuchRow
  | .payload _ => .reject .noSuchRow

/-- One header unit and nothing after it, as the encoder call it is the result of. -/
def decodeCall (d : Decoded (WireUnit × List Byte)) : Decoded Instr :=
  match d with
  | .ok (u, []) => encCallOf u
  | .ok (_, _ :: _) => .reject .trailing
  | .reject e => .reject e

/-- The operation at a site, given the bytes its operands are written in. The block's own operations
have no operand bytes: the control state alone names them (R80). -/
def decode (x : Site) (s : List Byte) : Decoded Instr :=
  match x with
  | .own c t r => select c t r
  | .callBh => decodeCall (decodeBh s)
  | .callMh fmt => decodeCall (decodeMh fmt s)
  | .callWrite => .ok (.htxWrite s)
  | .callFlush => .ok .htxFlush
  | .callReturn => .ok .ret

/-! ## Encoders -/

/-- `(fmt << 6) | low`, the first byte of every basic header (R138 to R140). -/
def bhByte0 (fmt low : Nat) : Byte := BitVec.ofNat 8 ((fmt <<< 6) ||| low)

/-- `ENC.BH1(fmt, csid)` (R138). -/
def encodeBh1 (fmt csid : Nat) : Option (List Byte) :=
  if encBh1Ok fmt csid then some [bhByte0 fmt csid] else none

/-- `ENC.BH2(fmt, csid)` (R139). -/
def encodeBh2 (fmt csid : Nat) : Option (List Byte) :=
  if encBh2Ok fmt csid then some [bhByte0 fmt 0, BitVec.ofNat 8 (csid - 64)] else none

/-- `ENC.BH3(fmt, csid)` (R140). -/
def encodeBh3 (fmt csid : Nat) : Option (List Byte) :=
  if encBh3Ok fmt csid then
    some [bhByte0 fmt 1, BitVec.ofNat 8 ((csid - 64) % 256), BitVec.ofNat 8 ((csid - 64) / 256)]
  else none

/-- `encode(fmt, chunk_stream_id)`: the smallest form (R141). -/
def encodeBh (fmt csid : Nat) : Option (List Byte) :=
  if csid ≤ 63 then encodeBh1 fmt csid
  else if csid ≤ 319 then encodeBh2 fmt csid
  else encodeBh3 fmt csid

/-- `ENC.MH0(ts, len, type, msid)` (R156). -/
def encodeMh0 (ts len type msid : Nat) : Option (List Byte) :=
  if encMh0Ok ts len type msid then
    some (toBe24 ts ++ toBe24 len ++ [BitVec.ofNat 8 type] ++ toLe32 msid)
  else none

/-- `ENC.MH1(tsd, len, type)` (R157). -/
def encodeMh1 (tsd len type : Nat) : Option (List Byte) :=
  if encMh1Ok tsd len type then some (toBe24 tsd ++ toBe24 len ++ [BitVec.ofNat 8 type]) else none

/-- `ENC.MH2(tsd)` (R158). -/
def encodeMh2 (tsd : Nat) : Option (List Byte) :=
  if encMh2Ok tsd then some (toBe24 tsd) else none

/-- `ENC.MH3()` (R159): no bytes, never refused. -/
def encodeMh3 : Option (List Byte) := some []

/-- A 1536-byte packet: time, second field, random block (R63, R90, R91; the two fields in the byte
order of R57). -/
def encodePacket (time second : Word32) (random : RandomBlock) : List Byte :=
  toBe32 time.toNat ++ toBe32 second.toNat ++ random.toList

/-- The bytes a wire unit stands for (R95). -/
def encodeUnit : WireUnit → List Byte
  | .c0 v => [v]
  | .c1 time zero random => encodePacket time zero random
  | .c2 time time2 random => encodePacket time time2 random
  | .s0 => [Config.s0Version]
  | .s1 time random => encodePacket time 0 random
  | .s2 time random => encodePacket time 0 random
  | .bh .one fmt csid => (encodeBh1 fmt.toNat csid).getD []
  | .bh .two fmt csid => (encodeBh2 fmt.toNat csid).getD []
  | .bh .three fmt csid => (encodeBh3 fmt.toNat csid).getD []
  | .mh0 ts len type msid => toBe24 ts.toNat ++ toBe24 len.toNat ++ [type] ++ toLe32 msid.toNat
  | .mh1 tsd len type => toBe24 tsd.toNat ++ toBe24 len.toNat ++ [type]
  | .mh2 tsd => toBe24 tsd.toNat
  | .mh3 => []
  | .payload bytes => bytes

/-- The kind of a wire unit, which the receiver knows from the control state (R80). -/
def WireUnit.kind : WireUnit → UnitKind
  | .c0 _ => .c0
  | .c1 _ _ _ => .c1
  | .c2 _ _ _ => .c2
  | .s0 => .s0
  | .s1 _ _ => .s1
  | .s2 _ _ => .s2
  | .bh _ _ _ => .bh
  | .mh0 _ _ _ _ => .mh 0
  | .mh1 _ _ _ => .mh 1
  | .mh2 _ => .mh 2
  | .mh3 => .mh 3
  | .payload bytes => .payload bytes.length

/-- The message header encoder of the variant whose fields are given, or a refusal where the present
fields are no variant's (R156 to R160). -/
def encodeMh (fmt : Nat) (h : MsgHeader) : Option (List Byte) :=
  match h.ts, h.tsd, h.len, h.type, h.msid with
  | some ts, none, some len, some type, some msid =>
    if fmt = 0 then encodeMh0 ts.toNat len.toNat type.toNat msid.toNat else none
  | none, some tsd, some len, some type, none =>
    if fmt = 1 then encodeMh1 tsd.toNat len.toNat type.toNat else none
  | none, some tsd, none, none, none => if fmt = 2 then encodeMh2 tsd.toNat else none
  | none, none, none, none, none => if fmt = 3 then encodeMh3 else none
  | _, _, _, _, _ => none

/-- `TXCHUNK` (R205): the bytes the host passes to `HTX.WRITE`, `encode ++ ENC.MHfmt ++ P`. The same
expression with `len(P)` as the header's length is the notation `CHUNK` of R96. -/
def chunkBytes (fmt csid : Nat) (h : MsgHeader) (payload : List Byte) : Option (List Byte) :=
  match encodeBh fmt csid, encodeMh fmt h with
  | some bh, some mh => some (bh ++ mh ++ payload)
  | _, _ => none

/-- `HANDSHAKE v T R X` (R96): what a peer sends before its first chunk. -/
def handshakeBytes (v : Byte) (time zero : Word32) (random : RandomBlock) (c2 : List Byte) :
    List Byte :=
  encodeUnit (.c0 v) ++ encodeUnit (.c1 time zero random) ++ c2

/-- The bytes an operation's own operands fix: what S0 and S1 put on TX, the result of an encoder
call, the bytes of an HTX write. Every other operation has no operand and no bytes of its own. -/
def encode : Instr → List Byte
  | .hsC0 => []
  | .hsS0 => encodeUnit .s0
  | .hsS1 t r => encodeUnit (.s1 t r)
  | .hsC1 => []
  | .hsS2 => []
  | .hsC2 => []
  | .hsDone => []
  | .bhB0 => []
  | .bh1 => []
  | .bh2 => []
  | .bh3 => []
  | .encBh1 fmt csid => (encodeBh1 fmt csid).getD []
  | .encBh2 fmt csid => (encodeBh2 fmt csid).getD []
  | .encBh3 fmt csid => (encodeBh3 fmt csid).getD []
  | .mh0 => []
  | .mh1 => []
  | .mh2 => []
  | .mh3 => []
  | .encMh0 ts len type msid => (encodeMh0 ts len type msid).getD []
  | .encMh1 tsd len type => (encodeMh1 tsd len type).getD []
  | .encMh2 tsd => (encodeMh2 tsd).getD []
  | .encMh3 => encodeMh3.getD []
  | .payloadLen => []
  | .payloadNone => []
  | .resolveDirect => []
  | .resolveInherit => []
  | .update => []
  | .dispatch => []
  | .drop => []
  | .htxWrite bytes => bytes
  | .htxFlush => []
  | .ret => []

/-- A selector in mode SESSION at `ck`, everything else at its first value. -/
def Selector.at (ck : CkState) : Selector := ⟨true, .done, ck, .one, 0, false, false, false⟩

/-- A selector in mode HANDSHAKE at `hs`. -/
def Selector.atHs (hs : HsState) : Selector := ⟨true, hs, .idle, .one, 0, false, false, false⟩

/-- A site of the block itself, where no draw matters. -/
def Site.ofCtl (c : Selector) : Site := .own c 0 (Vector.replicate 1528 0)

/-- The site at which each operation stands (the `select` entry of its row). -/
def Instr.site : Instr → Site
  | .hsC0 => .ofCtl (.atHs .awaitC0)
  | .hsS0 => .ofCtl (.atHs .sendS0)
  | .hsS1 t r => .own (.atHs .sendS1) t r
  | .hsC1 => .ofCtl (.atHs .awaitC1)
  | .hsS2 => .ofCtl (.atHs .sendS2)
  | .hsC2 => .ofCtl (.atHs .awaitC2)
  | .hsDone => .ofCtl (.atHs .done)
  | .bhB0 => .ofCtl (.at .bh0)
  | .bh1 => .ofCtl { Selector.at .bhx with form := .one }
  | .bh2 => .ofCtl { Selector.at .bhx with form := .two }
  | .bh3 => .ofCtl { Selector.at .bhx with form := .three }
  | .encBh1 _ _ => .callBh
  | .encBh2 _ _ => .callBh
  | .encBh3 _ _ => .callBh
  | .mh0 => .ofCtl { Selector.at .mh with fmt := 0 }
  | .mh1 => .ofCtl { Selector.at .mh with fmt := 1 }
  | .mh2 => .ofCtl { Selector.at .mh with fmt := 2 }
  | .mh3 => .ofCtl { Selector.at .mh with fmt := 3 }
  | .encMh0 _ _ _ _ => .callMh 0
  | .encMh1 _ _ _ => .callMh 1
  | .encMh2 _ => .callMh 2
  | .encMh3 => .callMh 3
  | .payloadLen => .ofCtl { Selector.at .payload with lenP := true }
  | .payloadNone => .ofCtl { Selector.at .payload with lenP := false }
  | .resolveDirect => .ofCtl { Selector.at .resolve with typeP := true }
  | .resolveInherit => .ofCtl { Selector.at .resolve with typeP := false }
  | .update => .ofCtl (.at .update)
  | .dispatch => .ofCtl { Selector.at .dispatch with known := true }
  | .drop => .ofCtl { Selector.at .dispatch with known := false }
  | .htxWrite _ => .callWrite
  | .htxFlush => .callFlush
  | .ret => .callReturn

/-! ## Names -/

/-- The name of an operation (R94), which `fault.op` records (R224). -/
def Instr.op : Instr → Op
  | .hsC0 => .hsC0
  | .hsS0 => .hsS0
  | .hsS1 _ _ => .hsS1
  | .hsC1 => .hsC1
  | .hsS2 => .hsS2
  | .hsC2 => .hsC2
  | .hsDone => .hsDone
  | .bhB0 => .bhB0
  | .bh1 => .bh1
  | .bh2 => .bh2
  | .bh3 => .bh3
  | .encBh1 _ _ => .encBh1
  | .encBh2 _ _ => .encBh2
  | .encBh3 _ _ => .encBh3
  | .mh0 => .mh0
  | .mh1 => .mh1
  | .mh2 => .mh2
  | .mh3 => .mh3
  | .encMh0 _ _ _ _ => .encMh0
  | .encMh1 _ _ _ => .encMh1
  | .encMh2 _ => .encMh2
  | .encMh3 => .encMh3
  | .payloadLen => .payloadLen
  | .payloadNone => .payloadNone
  | .resolveDirect => .resolveDirect
  | .resolveInherit => .resolveInherit
  | .update => .update
  | .dispatch => .dispatch
  | .drop => .drop
  | .htxWrite _ => .htxWrite
  | .htxFlush => .htxFlush
  | .ret => .ret

/-- The mnemonic of opcode_table.json. -/
def Op.mnemonic : Op → String
  | .hsC0 => "HS.C0"
  | .hsS0 => "HS.S0"
  | .hsS1 => "HS.S1"
  | .hsC1 => "HS.C1"
  | .hsS2 => "HS.S2"
  | .hsC2 => "HS.C2"
  | .hsDone => "HS.DONE"
  | .bhB0 => "BH.B0"
  | .bh1 => "BH1"
  | .bh2 => "BH2"
  | .bh3 => "BH3"
  | .encBh1 => "ENC.BH1"
  | .encBh2 => "ENC.BH2"
  | .encBh3 => "ENC.BH3"
  | .mh0 => "MH0"
  | .mh1 => "MH1"
  | .mh2 => "MH2"
  | .mh3 => "MH3"
  | .encMh0 => "ENC.MH0"
  | .encMh1 => "ENC.MH1"
  | .encMh2 => "ENC.MH2"
  | .encMh3 => "ENC.MH3"
  | .payloadLen => "PAYLOAD.LEN"
  | .payloadNone => "PAYLOAD.NONE"
  | .resolveDirect => "RESOLVE.DIRECT"
  | .resolveInherit => "RESOLVE.INHERIT"
  | .update => "UPDATE"
  | .dispatch => "DISPATCH"
  | .drop => "DROP"
  | .htxWrite => "HTX.WRITE"
  | .htxFlush => "HTX.FLUSH"
  | .ret => "RETURN"

/-! ## The rows of opcode_table.json as words -/

/-- The seven rows whose match and mask are over `bh_b0`: (mask, match, operation). -/
def bhxRows : List (Byte × Byte × Instr) :=
  [(0x20, 0x20, .bh1), (0x30, 0x10, .bh1), (0x38, 0x08, .bh1), (0x3C, 0x04, .bh1),
    (0x3E, 0x02, .bh1), (0x3F, 0x00, .bh2), (0x3F, 0x01, .bh3)]

/-- Whether a byte has a row's fixed bits. -/
def rowMatches (b : Byte) (row : Byte × Byte × Instr) : Bool := b &&& row.1 == row.2.1

/-- The bytes of a word of `n` bytes, most significant first: the table writes a pattern "first byte
leftmost" (R87) and numbers its bits from the right. -/
def wordBytes : Nat → Nat → List Byte
  | 0, _ => []
  | n + 1, w => BitVec.ofNat 8 (w / 256 ^ n) :: wordBytes n w

/-- An accepted operation, as an option. -/
def Decoded.toOption {α : Type} : Decoded α → Option α
  | .ok a => some a
  | .reject _ => none

/-- The row of opcode_table.json that a word of `nbits` bits is read as, the more fixed bits first:
of 8 bits, S0's constant byte, else the row over `bh_b0` that matches; of 16 and 24 bits, the encoded
basic headers `ENC.BH2` and `ENC.BH3`; otherwise the inbound row of that length (3, 7, 11 or 1536
bytes), whose bits are all free. Log 20. -/
def decodeTableWord (nbits w : Nat) : Option Instr :=
  if nbits = 8 then
    if BitVec.ofNat 8 w = Config.s0Version then some .hsS0
    else (bhxRows.find? (rowMatches (BitVec.ofNat 8 w))).map (·.2.2)
  else if nbits = 16 then (decode .callBh (wordBytes 2 w)).toOption
  else if nbits = 24 then
    match (decode .callBh (wordBytes 3 w)).toOption with
    | some i => some i
    | none => some .mh2
  else if nbits = 56 then some .mh1
  else if nbits = 88 then some .mh0
  else if nbits = 12288 then some .hsC1
  else none

end Sys2Proof
end

