-- ==== Sys2Proof/Machine/State.lean ====
section
/-! DEFINITION. The state of one block instance (10_state.md R20 to R31), of the transport it is
attached to (R31), of the outside's scheduled acts and of what has been seen of the run (00_scope.md
R12), with the values after reset (R35, R251). Plain data throughout. -/

namespace Sys2Proof.Machine

/-- `fault.code` (R23, R220). The value 3 is never taken (V11). -/
inductive FaultCode where
  | noFault | ioError | protocolError
  deriving DecidableEq, Repr

/-- The sticky fault register with its information record (R23, R224). -/
structure FaultReg where
  code : FaultCode
  /-- `fault.hs`. -/
  hs : HsState
  /-- `fault.ck`. -/
  ck : CkState
  /-- `fault.op`. -/
  op : Op
  /-- `fault.csid`, meaningful only for ProtocolError. -/
  csid : Csid
  /-- `fault.orderly`, meaningful only for IoError. -/
  orderly : Bool
  deriving DecidableEq, Repr

/-- `rx_end` (R31, D32): open, closed, or error. -/
inductive RxEnd where
  | stillOpen | closed | failed
  deriving DecidableEq, Repr

/-- The register file `cst` (R27): the valid entries, as (index, last_type), in strictly rising order
of the index. An index not listed is an entry with `valid = 0`. -/
abbrev Memory := List Host.Cell

/-- Canonical from index `lo` on: strictly rising, every index one of the 65600 entries. -/
def Memory.wfFrom (lo : Nat) : Memory → Bool
  | [] => true
  | (i, _) :: rest => decide (lo ≤ i) && decide (i < Config.cstEntries) && Memory.wfFrom (i + 1) rest

/-- The canonical form: indices strictly rising and below 65600, so that equal register files are
equal lists. No listed entry equals what an unlisted index reads as, since a listed entry is valid. -/
def Memory.wf (m : Memory) : Bool := Memory.wfFrom 0 m

/-- `stream_handle` of a delivery (R201, D19): the HTX port. -/
inductive StreamHandle where
  | htx
  deriving DecidableEq, Repr

/-- The decoded chunk that goes out with a delivery (R201). -/
structure Chunk where
  fmt : Fmt
  form : BhForm
  csid : Csid
  /-- The five optional fields; a field the header did not carry is absent. -/
  mh : MsgHeader
  deriving DecidableEq, Repr

/-- One DELIVER record (R201). -/
structure Delivery where
  /-- `message_type_id`, the resolved type. -/
  messageType : Byte
  /-- `payload_bytes`. -/
  payload : List Byte
  /-- `stream_handle`. -/
  stream : StreamHandle
  chunk : Chunk
  deriving DecidableEq, Repr

/-- What the outside sees (R12), in order. -/
inductive Event where
  /-- The bytes of one `TxWrite`, appended to TX (R52). -/
  | tx (bytes : List Byte)
  /-- The part of a failed `TxWrite` that reached the peer (R52, V5). -/
  | txPart (bytes : List Byte)
  /-- A flush point (R65). -/
  | flush
  /-- A DELIVER record (R201). -/
  | deliver (d : Delivery)
  /-- A DROP event (R202). -/
  | drop (type : Byte)
  /-- The answer to an encoder call (R208). -/
  | encoded (op : Op) (bytes : List Byte)
  /-- The refusal of a host call (R13, R208, R223). -/
  | refusedCall (op : Op)
  deriving DecidableEq, Repr

/-- One act of the outside (R10, R31), or the block's turn. -/
inductive EnvEvent where
  /-- The block's turn. -/
  | tick
  /-- The peer's bytes arrive. -/
  | rx (bytes : List Byte)
  /-- The peer closes RX in an orderly way; no buffered byte is lost (R51, D32). -/
  | rxClose
  /-- RX ends in an error; only the first `kept` buffered bytes survive (R51, D32, V7). -/
  | rxError (kept : Nat)
  /-- The transport's condition changes: whether it still accepts bytes (`tx_ok`), whether it can hand
  them on, and whether it makes no write and no flush wait (R7, R31, R52, R65). -/
  | transport (txOk flushOk ready flushReady : Bool)
  /-- The I/O deadline expires (R237). -/
  | deadline
  /-- The host makes a call (R208). -/
  | host (call : HostCall)
  /-- A call arrives over the HTX port, which takes calls only while a handler runs, those of the encode
  operations too (R7). Log 18. -/
  | htx (call : HostCall)
  /-- Reset: a new connection, on which `rx` has already arrived (R250, R251). On a live one: log 31. -/
  | rst (rx : List Byte)
  deriving DecidableEq, Repr

/-- Everything the machine holds. -/
structure State where
  /-- `hs_state` (R21). -/
  hsState : HsState
  /-- `ck_state` (R22). -/
  ckState : CkState
  /-- `fault` (R23). -/
  fault : FaultReg
  /-- `bh_b0` (R24). -/
  bhB0 : Byte
  /-- `bh_fmt` (R24). -/
  bhFmt : Fmt
  /-- `bh_form` (R24). -/
  bhForm : BhForm
  /-- `bh_csid` (R24). -/
  bhCsid : Csid
  /-- The message-header registers with their presence flags (R25). -/
  mh : MsgHeader
  /-- `payload` (R26). -/
  payload : List Byte
  /-- `res_type` (R26). -/
  resType : Byte
  /-- `cst` (R27). -/
  cst : Memory
  /-- Handshake buffer `c0` (R28), 1 byte. -/
  c0 : List Byte
  /-- Handshake buffer `c1` (R28), 1536 bytes. -/
  c1 : List Byte
  /-- Handshake buffer `c2` (R28), 1536 bytes. -/
  c2 : List Byte
  /-- Handshake buffer `s0` (R28), 1 byte. -/
  s0 : List Byte
  /-- Handshake buffer `s1` (R28), 1536 bytes. -/
  s1 : List Byte
  /-- Handshake buffer `s2` (R28), 1536 bytes. -/
  s2 : List Byte
  /-- `c0_version` (R29). -/
  c0Version : Byte
  /-- `rx_pos` (R30), a ghost counter. -/
  rxPos : Nat
  /-- `tx_pos` (R30), a ghost counter. -/
  txPos : Nat
  /-- `rx_avail` (R31 a). -/
  rxAvail : List Byte
  /-- `rx_end` (R31 b). -/
  rxEnd : RxEnd
  /-- Bytes written to TX and not yet flushed (R31 c). -/
  txPending : List Byte
  /-- `tx_ok` (R31 d). -/
  txOk : Bool
  /-- Model's own: the transport would complete a flush (R7, R65). Log 14. -/
  txFlushOk : Bool
  /-- Model's own: the transport makes no write wait (R52, R238). Log 14. -/
  txReady : Bool
  /-- Model's own: the transport makes no flush wait (R65, R236). Log 14. -/
  txFlushReady : Bool
  /-- The parameter `KNOWN_TYPES` (R6, R209). Log 11. -/
  knownTypes : List Byte
  /-- The parameter `IO_DEADLINE` (R6, R237). Log 11. -/
  ioDeadline : Option Nat
  /-- Model's own: host calls presented and not yet answered. Log 28. -/
  hostQ : List HostCall
  /-- Model's own: what the outside does next, one act a step. Log 2. -/
  env : List EnvEvent
  /-- Model's own: what the outside has seen, oldest first (R12). Log 23. -/
  events : List Event
  /-- Model's own: the number of the connection, which indexes the free values. Log 12. -/
  conn : Nat
  /-- Model's own: the ended connection has released its state (R36, R226). Log 7. -/
  released : Bool
  deriving DecidableEq, Repr

/-- Why a run ends or the machine stops. -/
inductive Fault where
  /-- The run has ended by IoError (R267): the block's turn in mode FAILED with `fault.code = 1`. No
  operation is enabled there (R225). Safe. -/
  | ioError
  /-- The run has ended by ProtocolError (R267): the block's turn in mode FAILED with `fault.code = 2`.
  Safe. -/
  | protocolError
  /-- `RESOLVE.INHERIT` or `UPDATE` with `bh_csid` above 65599: the register file has no such entry
  (R27); no run reaches it (R53). Safe. Log 10. -/
  | noSuchEntry
  deriving DecidableEq, Repr

/-- Why an operation has no step. -/
inductive Refusal where
  /-- Raised by `exec` for an instruction that has no meaning yet. Safe. -/
  | notModelled (mnemonic : String)
  /-- Raised by every operation of the block that is asked to run where its rule's "Enabled when" does
  not hold; the machine's own step never asks so. Safe. Log 4. -/
  | notEnabled (op : Op)
  deriving DecidableEq, Repr

/-- The fault register after reset: `fault.code = None` (R35); the information fields are unspecified
there and hold the values of log 9. -/
def FaultReg.reset : FaultReg := ⟨.noFault, .awaitC0, .idle, .hsC0, 0, false⟩

/-- Every field absent: the message-header registers after reset (log 9). -/
def absentHeader : MsgHeader := ⟨none, none, none, none, none⟩

/-- The machine right after reset (R35, R251), with the default parameters (R5). The registers that
R35 gives no value hold the values of log 9. The inbound buffers hold 3073 bytes, as R28 and R63 have
it, and not the 3074 of R50: log 29. -/
def State.reset : State where
  hsState := .awaitC0
  ckState := .idle
  fault := FaultReg.reset
  bhB0 := 0
  bhFmt := 0
  bhForm := .one
  bhCsid := 0
  mh := absentHeader
  payload := []
  resType := 0
  cst := []
  c0 := [0]
  c1 := List.replicate 1536 0
  c2 := List.replicate 1536 0
  s0 := [0]
  s1 := List.replicate 1536 0
  s2 := List.replicate 1536 0
  c0Version := 0
  rxPos := 0
  txPos := 0
  rxAvail := []
  rxEnd := .stillOpen
  txPending := []
  txOk := true
  txFlushOk := true
  txReady := true
  txFlushReady := true
  knownTypes := Config.defaultKnownTypes
  ioDeadline := Config.defaultIoDeadline
  hostQ := []
  env := []
  events := []
  conn := 0
  released := false

end Sys2Proof.Machine
end

