-- ==== Sys2Proof/Machine/Flags.lean ====
section
/-! DEFINITION. The one-bit status items (10_state.md R33): the presence flags, the `valid` bit of a
register-file entry, `fault.orderly`; and the conditions the operations test. The block has no
arithmetic condition codes. -/

namespace Sys2Proof.Machine

/-- `fault.code = None` (R23). -/
def State.live (s : State) : Bool := decide (s.fault.code = .noFault)

/-- `mh_ts_p` (R25). -/
def State.mhTsP (s : State) : Bool := s.mh.ts.isSome

/-- `mh_tsd_p` (R25). -/
def State.mhTsdP (s : State) : Bool := s.mh.tsd.isSome

/-- `mh_len_p` (R25). -/
def State.mhLenP (s : State) : Bool := s.mh.len.isSome

/-- `mh_type_p` (R25). -/
def State.mhTypeP (s : State) : Bool := s.mh.type.isSome

/-- `mh_msid_p` (R25). -/
def State.mhMsidP (s : State) : Bool := s.mh.msid.isSome

/-- The HTX port is open (R7, R203, R206): a handler runs. -/
def State.htxOpen (s : State) : Bool := s.live && decide (s.ckState = .handler)

/-- `res_type` is in `KNOWN_TYPES` (R201, R209). -/
def State.known (s : State) : Bool := s.knownTypes.contains s.resType

/-- `fault.orderly` of an IoError raised by `op` (R224): `BH.B0` found RX closed and empty. -/
def State.orderlyEnd (s : State) (op : Op) : Bool :=
  decide (op = .bhB0) && decide (s.rxEnd = .closed) && s.rxAvail.isEmpty

/-- `RxRead(n)` would wait (R51 d). -/
def State.rxWaits (s : State) (n : Nat) : Bool :=
  decide (0 < n) && decide (s.rxAvail.length < n) && decide (s.rxEnd = .stillOpen)

/-- `TxWrite(bytes)` would wait (R52): the transport has not failed and makes it wait. -/
def State.txWaits (s : State) (bytes : List Byte) : Bool :=
  !bytes.isEmpty && s.txOk && !s.txReady

/-- `TxFlush()` would wait (R65, R236). -/
def State.flushWaits (s : State) : Bool := s.txFlushOk && !s.txFlushReady

end Sys2Proof.Machine
end

