-- ==== Sys2Proof/Machine/Ops.lean ====
section
/-! DEFINITION. The primitives of 00_scope.md R9 over streams and register file: `RxRead` (20_memory.md
R51), `TxWrite` (R52), `TxFlush` (R65), reading and writing `cst` (R53), raising an exception
(60_exceptions.md R224, R225), releasing the state of an ended connection (R226), and discarding the
handshake buffers (10_state.md R28). -/

namespace Sys2Proof.Machine

/-- What a meaning answers. -/
abbrev Out := Host.Outcome State Fault Refusal

/-! ## The register file (R53) -/

/-- Read entry `i`: `some last_type` where `valid = 1`, `none` where `valid = 0` (R27). -/
def Memory.read : Memory → Nat → Option Byte
  | [], _ => none
  | (j, v) :: rest, i => if j = i then some v else Memory.read rest i

/-- Write `(valid = 1, last_type = v)` into entry `i`; no other entry changes (R53). -/
def Memory.write : Memory → Nat → Byte → Memory
  | [], i, v => [(i, v)]
  | (j, w) :: rest, i, v =>
    if i < j then (i, v) :: (j, w) :: rest
    else if i = j then (i, v) :: rest
    else (j, w) :: Memory.write rest i v

/-- Bring any cells into canonical form; a cell outside the index space is left out. -/
def Memory.ofCells : List (Nat × Byte) → Memory
  | [] => []
  | (i, v) :: rest =>
    if i < Config.cstEntries then Memory.write (Memory.ofCells rest) i v else Memory.ofCells rest

/-! ## Observation (R12) -/

/-- One more thing the outside has seen. -/
def State.log (s : State) (e : Event) : State := { s with events := s.events ++ [e] }

/-- The answer to an encoder call: the bytes, or a refusal with no bytes; the block's state is
untouched (R13, R141, R160, R208). -/
def State.answer (s : State) (op : Op) (result : Option (List Byte)) : State :=
  match result with
  | some bytes => s.log (.encoded op bytes)
  | none => s.log (.refusedCall op)

/-! ## Exceptions (R220 to R227) -/

/-- Taking an exception (R224, R225): the information record is written, and nothing else. `fault.csid`
is written for ProtocolError only, `fault.orderly` for IoError only. There is no vector, no saved state
and no return (R226): from here on no operation is enabled. -/
def State.raise (s : State) (code : FaultCode) (op : Op) : State :=
  { s with
    fault :=
      { code := code
        hs := s.hsState
        ck := s.ckState
        op := op
        csid := if code = .protocolError then s.bhCsid else s.fault.csid
        orderly := if code = .ioError then s.orderlyEnd op else s.fault.orderly } }

/-- A `TxWrite(bytes)` that fails: an unspecified part from its front has reached the peer (R52). That the
record keeps this part alone of a failed or deadline-ended host write, and not the write with all its bytes,
is the model's choice (log 23); how `tx_pos` takes it is log 13. -/
def State.sendPart (s : State) (bytes : List Byte) : State :=
  s.log (.txPart (bytes.take (Config.sentCount s.conn bytes % (bytes.length + 1))))

/-! ## Streams -/

/-- What `RxRead` answers (R51): the bytes, IoError, or a wait. -/
inductive RxResult where
  | got (bytes : List Byte) (s : State)
  | ended
  | waits

/-- `RxRead(n)`, the four cases of R51. -/
def State.rxRead (s : State) (n : Nat) : RxResult :=
  if n = 0 then .got [] s
  else if n ≤ s.rxAvail.length then
    .got (s.rxAvail.take n) { s with rxAvail := s.rxAvail.drop n, rxPos := s.rxPos + n }
  else if s.rxEnd = .stillOpen then .waits
  else .ended

/-- What `TxWrite` and `TxFlush` answer: done, IoError (with what has happened before it), or a wait. -/
inductive TxResult where
  | done (s : State)
  | failed (s : State)
  | waits

/-- `TxWrite(bytes)` (R52). The empty sequence does nothing and cannot fail. -/
def State.txWrite (s : State) (bytes : List Byte) : TxResult :=
  if bytes.isEmpty then .done s
  else if s.txOk then
    if s.txReady then
      .done
        { s with
          txPending := s.txPending ++ bytes
          txPos := s.txPos + bytes.length
          events := s.events ++ [.tx bytes] }
    else .waits
  else .failed (s.sendPart bytes)

/-- `TxFlush()` (R65). A flush with nothing unflushed is a flush like any other, with its flush point and its
wait: the model's choice (log 30). -/
def State.txFlush (s : State) : TxResult :=
  if s.txFlushOk then
    if s.txFlushReady then .done { s with txPending := [], events := s.events ++ [.flush] } else .waits
  else .failed s

/-- An operation that reads `n` bytes and goes on as `k` says: it waits without any change, or raises
IoError, or runs (R11, R51). -/
def reading (op : Op) (n : Nat) (s : State) (k : List Byte → State → State) : Out :=
  match s.rxRead n with
  | .got bytes t => .next (k bytes t)
  | .ended => .next (s.raise .ioError op)
  | .waits => .next s

/-- An operation that has set its buffer (`s`), writes `bytes` and goes on as `k` says. While it waits
nothing has happened (`before`, log 27); a failure raises IoError (R52, R225). -/
def writing (op : Op) (bytes : List Byte) (before s : State) (k : State → State) : Out :=
  match s.txWrite bytes with
  | .done t => .next (k t)
  | .failed t => .next (t.raise .ioError op)
  | .waits => .next before

/-- As `writing`, with a flush after the write (R113, R115): a write failure is reported before a
flush failure (R227), and a failed flush does not undo the write. -/
def writingFlush (op : Op) (bytes : List Byte) (before s : State) (k : State → State) : Out :=
  match s.txWrite bytes with
  | .done t =>
    match t.txFlush with
    | .done u => .next (k u)
    | .failed u => .next (u.raise .ioError op)
    | .waits => .next before
  | .failed t => .next (t.raise .ioError op)
  | .waits => .next before

/-- An operation that only flushes (R204). -/
def flushing (op : Op) (s : State) (k : State → State) : Out :=
  match s.txFlush with
  | .done t => .next (k t)
  | .failed t => .next (t.raise .ioError op)
  | .waits => .next s

/-! ## Discarded state -/

/-- A buffer whose content has become unspecified: as many bytes as before, each a free value. -/
def discarded (conn which : Nat) (held : List Byte) : List Byte :=
  (List.range held.length).map (Config.discardedByte conn which held)

/-- The six handshake buffers once `hs_state = Done`: unspecified (R28, R36, C5). Log 8. -/
def State.discardHandshake (s : State) : State :=
  { s with
    c0 := discarded s.conn 0 s.c0
    c1 := discarded s.conn 1 s.c1
    c2 := discarded s.conn 2 s.c2
    s0 := discarded s.conn 3 s.s0
    s1 := discarded s.conn 4 s.s1
    s2 := discarded s.conn 5 s.s2 }

/-- `hs_state` of a number, for a free value: one of its seven values. -/
def hsOfNat (n : Nat) : HsState :=
  match n % 7 with
  | 0 => .awaitC0
  | 1 => .sendS0
  | 2 => .sendS1
  | 3 => .awaitC1
  | 4 => .sendS2
  | 5 => .awaitC2
  | _ => .done

/-- `ck_state` of a number, for a free value: one of its nine values. -/
def ckOfNat (n : Nat) : CkState :=
  match n % 9 with
  | 0 => .idle
  | 1 => .bh0
  | 2 => .bhx
  | 3 => .mh
  | 4 => .payload
  | 5 => .resolve
  | 6 => .update
  | 7 => .dispatch
  | _ => .handler

/-- `bh_form` of a number, for a free value. -/
def formOfNat (n : Nat) : BhForm :=
  match n % 3 with
  | 0 => .one
  | 1 => .two
  | _ => .three

/-- A free optional field: a presence flag and, where it is set, a value. -/
def releasedField {w : Nat} (conn which : Nat) (held : Option (BitVec w)) : Option (BitVec w) :=
  let v := Config.releasedWord conn which ((held.map BitVec.toNat).getD 0)
  if v % 2 = 0 then none else some (BitVec.ofNat w (v / 2))

/-- The end of a connection: "all per-connection state is discarded"; every register other than
`fault.*` is unspecified (R36, R226, D29). The ghost counters, the transport, the parameters and the
record of what was seen are no registers of the block and stay. Log 7. -/
def State.release (s : State) : State :=
  { s.discardHandshake with
    hsState := hsOfNat (Config.releasedWord s.conn 0 s.hsState.number)
    ckState := ckOfNat (Config.releasedWord s.conn 1 s.ckState.number)
    bhB0 := BitVec.ofNat 8 (Config.releasedWord s.conn 2 s.bhB0.toNat)
    bhFmt := BitVec.ofNat 2 (Config.releasedWord s.conn 3 s.bhFmt.toNat)
    bhForm := formOfNat (Config.releasedWord s.conn 4 s.bhForm.size)
    bhCsid := BitVec.ofNat 17 (Config.releasedWord s.conn 5 s.bhCsid.toNat)
    mh :=
      { ts := releasedField s.conn 6 s.mh.ts
        tsd := releasedField s.conn 7 s.mh.tsd
        len := releasedField s.conn 8 s.mh.len
        type := releasedField s.conn 9 s.mh.type
        msid := releasedField s.conn 10 s.mh.msid }
    payload := (Config.releasedBytes s.conn 11 s.payload).take Config.maxMsgLen
    resType := BitVec.ofNat 8 (Config.releasedWord s.conn 12 s.resType.toNat)
    cst := Memory.ofCells (Config.releasedCells s.conn s.cst)
    c0Version := BitVec.ofNat 8 (Config.releasedWord s.conn 13 s.c0Version.toNat)
    released := true }

/-- Reset (R250): a new connection, on which the peer has already sent `rx` (R251). Everything is as
after reset; the parameters are fixed before it (R252) and stay; the free values are the next
connection's. Log 22. That `rst` does this to a live connection too is log 31. -/
def State.newConnection (s : State) (rx : List Byte) : State :=
  { State.reset with
    rxAvail := rx
    knownTypes := s.knownTypes
    ioDeadline := s.ioDeadline
    env := s.env
    conn := s.conn + 1 }

end Sys2Proof.Machine
end

