-- ==== Sys2Proof/Machine/Operands.lean ====
section
/-! DEFINITION. What each operation takes: when it is enabled (the "Enabled when" of its rule), how many
bytes it reads (20_memory.md R60), where it waits (60_exceptions.md R238), and how the registers are
read as operands (41_basic_header.md R134, 42_message_header.md R155). -/

namespace Sys2Proof.Machine

/-- `get_fmt()` (R134). -/
def State.getFmt (s : State) : Fmt := s.bhFmt

/-- `get_chunk_stream_id()` (R134). -/
def State.getChunkStreamId (s : State) : Csid := s.bhCsid

/-- The index of the current chunk's register-file entry (R53). -/
def State.entry (s : State) : Nat := s.bhCsid.toNat

/-- The decoded chunk of the current-chunk registers (R173, R201). -/
def State.chunk (s : State) : Chunk := ⟨s.bhFmt, s.bhForm, s.bhCsid, s.mh⟩

/-- The draws of `HS.S1` (R113): the random block. -/
def drawRandom (conn : Nat) : RandomBlock :=
  ⟨((List.range 1528).map (Config.drawByte conn)).toArray, by rw [List.size_toArray, List.length_map, List.length_range]⟩

/-- What selects the block's next operation (R80, R38). -/
def State.selector (s : State) : Selector where
  live := s.live
  hs := s.hsState
  ck := s.ckState
  form := s.bhForm
  fmt := s.bhFmt
  lenP := s.mhLenP
  typeP := s.mhTypeP
  known := s.known

/-- Where the block's next operation stands: its control state, with this connection's draws. -/
def State.ownSite (s : State) : Site := .own s.selector (Config.drawTime s.conn) (drawRandom s.conn)

/-- "Enabled when" of each operation's rule. Every operation but the `ENC.*` functions also requires
`fault.code = None` (R87, R110). -/
def enabled (i : Instr) (s : State) : Bool :=
  match i with
  | .hsC0 => s.live && decide (s.hsState = .awaitC0)
  | .hsS0 => s.live && decide (s.hsState = .sendS0)
  | .hsS1 _ _ => s.live && decide (s.hsState = .sendS1)
  | .hsC1 => s.live && decide (s.hsState = .awaitC1)
  | .hsS2 => s.live && decide (s.hsState = .sendS2)
  | .hsC2 => s.live && decide (s.hsState = .awaitC2)
  | .hsDone => s.live && decide (s.hsState = .done) && decide (s.ckState = .idle)
  | .bhB0 => s.live && decide (s.ckState = .bh0)
  | .bh1 => s.live && decide (s.ckState = .bhx) && decide (s.bhForm = .one)
  | .bh2 => s.live && decide (s.ckState = .bhx) && decide (s.bhForm = .two)
  | .bh3 => s.live && decide (s.ckState = .bhx) && decide (s.bhForm = .three)
  | .encBh1 _ _ => true
  | .encBh2 _ _ => true
  | .encBh3 _ _ => true
  | .mh0 => s.live && decide (s.ckState = .mh) && decide (s.bhFmt = 0)
  | .mh1 => s.live && decide (s.ckState = .mh) && decide (s.bhFmt = 1)
  | .mh2 => s.live && decide (s.ckState = .mh) && decide (s.bhFmt = 2)
  | .mh3 => s.live && decide (s.ckState = .mh) && decide (s.bhFmt = 3)
  | .encMh0 _ _ _ _ => true
  | .encMh1 _ _ _ => true
  | .encMh2 _ => true
  | .encMh3 => true
  | .payloadLen => s.live && decide (s.ckState = .payload) && s.mhLenP
  | .payloadNone => s.live && decide (s.ckState = .payload) && !s.mhLenP
  | .resolveDirect => s.live && decide (s.ckState = .resolve) && s.mhTypeP
  | .resolveInherit => s.live && decide (s.ckState = .resolve) && !s.mhTypeP
  | .update => s.live && decide (s.ckState = .update)
  | .dispatch => s.live && decide (s.ckState = .dispatch) && s.known
  | .drop => s.live && decide (s.ckState = .dispatch) && !s.known
  | .htxWrite _ => s.live && decide (s.ckState = .handler)
  | .htxFlush => s.live && decide (s.ckState = .handler)
  | .ret => s.live && decide (s.ckState = .handler)

/-- `message_length` as a number of bytes, 0 where it is absent (R173). -/
def State.payloadLength (s : State) : Nat := (s.mh.len.map BitVec.toNat).getD 0

/-- How many bytes of RX an operation reads (R60, and `length_bytes` of its row). -/
def readLen (i : Instr) (s : State) : Nat :=
  match i with
  | .hsC0 => 1
  | .hsS0 => 0
  | .hsS1 _ _ => 0
  | .hsC1 => 1536
  | .hsS2 => 0
  | .hsC2 => 1536
  | .hsDone => 0
  | .bhB0 => 1
  | .bh1 => 0
  | .bh2 => 1
  | .bh3 => 2
  | .encBh1 _ _ => 0
  | .encBh2 _ _ => 0
  | .encBh3 _ _ => 0
  | .mh0 => 11
  | .mh1 => 7
  | .mh2 => 3
  | .mh3 => 0
  | .encMh0 _ _ _ _ => 0
  | .encMh1 _ _ _ => 0
  | .encMh2 _ => 0
  | .encMh3 => 0
  | .payloadLen => s.payloadLength
  | .payloadNone => 0
  | .resolveDirect => 0
  | .resolveInherit => 0
  | .update => 0
  | .dispatch => 0
  | .drop => 0
  | .htxWrite _ => 0
  | .htxFlush => 0
  | .ret => 0

/-- The 1536 bytes of S2 (R115): C1's time, four zero bytes, C1's random block. -/
def State.s2Bytes (s : State) : List Byte :=
  s.c1.take 4 ++ [0, 0, 0, 0] ++ (s.c1.drop 8).take 1528

/-- What an enabled operation puts on TX (R60). -/
def writeBytes (i : Instr) (s : State) : List Byte :=
  match i with
  | .hsC0 => []
  | .hsS0 => encodeUnit .s0
  | .hsS1 t r => encodeUnit (.s1 t r)
  | .hsC1 => []
  | .hsS2 => s.s2Bytes
  | .hsC2 => []
  | .hsDone => []
  | .bhB0 => []
  | .bh1 => []
  | .bh2 => []
  | .bh3 => []
  | .encBh1 _ _ => []
  | .encBh2 _ _ => []
  | .encBh3 _ _ => []
  | .mh0 => []
  | .mh1 => []
  | .mh2 => []
  | .mh3 => []
  | .encMh0 _ _ _ _ => []
  | .encMh1 _ _ _ => []
  | .encMh2 _ => []
  | .encMh3 => []
  | .payloadLen => []
  | .payloadNone => []
  | .resolveDirect => []
  | .resolveInherit => []
  | .update => []
  | .dispatch => []
  | .drop => []
  | .htxWrite bytes => bytes
  | .htxFlush => []
  | .ret => []

/-- Whether an operation ends with a `TxFlush` (R113, R115, R204). -/
def flushes (i : Instr) : Bool :=
  match i with
  | .hsC0 => false
  | .hsS0 => false
  | .hsS1 _ _ => true
  | .hsC1 => false
  | .hsS2 => true
  | .hsC2 => false
  | .hsDone => false
  | .bhB0 => false
  | .bh1 => false
  | .bh2 => false
  | .bh3 => false
  | .encBh1 _ _ => false
  | .encBh2 _ _ => false
  | .encBh3 _ _ => false
  | .mh0 => false
  | .mh1 => false
  | .mh2 => false
  | .mh3 => false
  | .encMh0 _ _ _ _ => false
  | .encMh1 _ _ _ => false
  | .encMh2 _ => false
  | .encMh3 => false
  | .payloadLen => false
  | .payloadNone => false
  | .resolveDirect => false
  | .resolveInherit => false
  | .update => false
  | .dispatch => false
  | .drop => false
  | .htxWrite _ => false
  | .htxFlush => true
  | .ret => false

/-- Whether an enabled operation waits (R236, R238): in `RxRead`, in `TxWrite`, or in `TxFlush` once the
write before it goes through. -/
def blocked (i : Instr) (s : State) : Bool :=
  enabled i s &&
    (s.rxWaits (readLen i s) || s.txWaits (writeBytes i s) ||
      (flushes i && (s.txOk || (writeBytes i s).isEmpty) && s.flushWaits))

end Sys2Proof.Machine
end

