-- ==== Sys2Proof/Machine/BasicHeader.lean ====
section
/-! DEFINITION. The basic-header decoder and encoders: 41_basic_header.md R130 to R141. -/

namespace Sys2Proof.Machine

/-- `BH.B0` (R130): read byte 0, take `fmt` and select the form. -/
def execBhB0 (s : State) : Out :=
  if enabled .bhB0 s then
    reading .bhB0 1 s fun b t =>
      { t with
        bhB0 := byteAt b 0
        bhFmt := fmtOf (byteAt b 0)
        bhForm := formOf (byteAt b 0)
        ckState := .bhx }
  else .refused (.notEnabled .bhB0)

/-- `BH1` (R131): the id is `bh_b0[5:0]`; no byte is read. -/
def execBh1 (s : State) : Out :=
  if enabled .bh1 s then
    reading .bh1 0 s fun _ t => { t with bhCsid := csidOne t.bhB0, ckState := .mh }
  else .refused (.notEnabled .bh1)

/-- `BH2` (R132): one more byte, plus 64. -/
def execBh2 (s : State) : Out :=
  if enabled .bh2 s then
    reading .bh2 1 s fun b t => { t with bhCsid := csidTwo (byteAt b 0), ckState := .mh }
  else .refused (.notEnabled .bh2)

/-- `BH3` (R133): two more bytes, the second byte of the header being the low part. -/
def execBh3 (s : State) : Out :=
  if enabled .bh3 s then
    reading .bh3 2 s fun b t =>
      { t with bhCsid := csidThree (byteAt b 0) (byteAt b 1), ckState := .mh }
  else .refused (.notEnabled .bh3)

/-- `ENC.BH1(fmt, csid)` (R138): the bytes, or a refusal (R141); no state is touched. -/
def execEncBh1 (fmt csid : Nat) (s : State) : Out := .next (s.answer .encBh1 (encodeBh1 fmt csid))

/-- `ENC.BH2(fmt, csid)` (R139). -/
def execEncBh2 (fmt csid : Nat) (s : State) : Out := .next (s.answer .encBh2 (encodeBh2 fmt csid))

/-- `ENC.BH3(fmt, csid)` (R140). -/
def execEncBh3 (fmt csid : Nat) (s : State) : Out := .next (s.answer .encBh3 (encodeBh3 fmt csid))

end Sys2Proof.Machine
end

