-- ==== Sys2Proof/Machine/Demux.lean ====
section
/-! DEFINITION. The register file and the inheritance engine: 44_demux.md R186, R187, R189. Only
`message_type_id` is inherited (R192). An index of 65600 or more, which no decoded header gives (R135),
is no entry of the file (R27) and stops the machine by name. -/

namespace Sys2Proof.Machine

/-- `RESOLVE.DIRECT` (R186): the type comes from the header; the register file is not read. -/
def execResolveDirect (s : State) : Out :=
  if enabled .resolveDirect s then
    .next { s with resType := s.mh.type.getD 0, ckState := .update }
  else .refused (.notEnabled .resolveDirect)

/-- `RESOLVE.INHERIT` (R187): the type comes from the register file; an invalid entry raises
ProtocolError and never reads as a number (R188). -/
def execResolveInherit (s : State) : Out :=
  if enabled .resolveInherit s then
    if s.entry < Config.cstEntries then
      match s.cst.read s.entry with
      | some t => .next { s with resType := t, ckState := .update }
      | none => .next (s.raise .protocolError .resolveInherit)
    else .fault .noSuchEntry
  else .refused (.notEnabled .resolveInherit)

/-- `UPDATE` (R189): write the entry, whatever `fmt` was and whatever the type is. -/
def execUpdate (s : State) : Out :=
  if enabled .update s then
    if s.entry < Config.cstEntries then
      .next { s with cst := s.cst.write s.entry s.resType, ckState := .dispatch }
    else .fault .noSuchEntry
  else .refused (.notEnabled .update)

end Sys2Proof.Machine
end

