-- ==== Sys2Proof/Machine/Handshake.lean ====
section
/-! DEFINITION. The handshake operations: 40_handshake.md R111 to R117. Each advances `hs_state` to the
next value in the order of R21. -/

namespace Sys2Proof.Machine

/-- `HS.C0` (R111): read the client's version byte; any value is accepted. -/
def execHsC0 (s : State) : Out :=
  if enabled .hsC0 s then
    reading .hsC0 1 s fun b t =>
      { t with c0 := b, c0Version := byteAt b 0, hsState := .sendS0 }
  else .refused (.notEnabled .hsC0)

/-- `HS.S0` (R112): send the version byte 3. No flush. -/
def execHsS0 (s : State) : Out :=
  if enabled .hsS0 s then
    writing .hsS0 (encodeUnit .s0) s { s with s0 := encodeUnit .s0 } fun t =>
      { t with hsState := .sendS1 }
  else .refused (.notEnabled .hsS0)

/-- `HS.S1` (R113): send time `t`, four zero bytes and the random block `r`, then flush. -/
def execHsS1 (t : Word32) (r : RandomBlock) (s : State) : Out :=
  if enabled (.hsS1 t r) s then
    writingFlush .hsS1 (encodeUnit (.s1 t r)) s { s with s1 := encodeUnit (.s1 t r) } fun u =>
      { u with hsState := .awaitC1 }
  else .refused (.notEnabled .hsS1)

/-- `HS.C1` (R114): read the client's 1536 bytes; nothing in them is checked. -/
def execHsC1 (s : State) : Out :=
  if enabled .hsC1 s then
    reading .hsC1 1536 s fun b t => { t with c1 := b, hsState := .sendS2 }
  else .refused (.notEnabled .hsC1)

/-- `HS.S2` (R115): echo C1's time and random block around four zero bytes, then flush. -/
def execHsS2 (s : State) : Out :=
  if enabled .hsS2 s then
    writingFlush .hsS2 s.s2Bytes s { s with s2 := s.s2Bytes } fun u =>
      { u with hsState := .awaitC2 }
  else .refused (.notEnabled .hsS2)

/-- `HS.C2` (R116): read the client's 1536 bytes; nothing in them is checked. With `hs_state = Done`
the handshake buffers become unspecified (R28, C5), `c2` among them. Log 8. -/
def execHsC2 (s : State) : Out :=
  if enabled .hsC2 s then
    reading .hsC2 1536 s fun b t => State.discardHandshake { t with c2 := b, hsState := .done }
  else .refused (.notEnabled .hsC2)

/-- `HS.DONE` (R117): hand control to the chunk path; no byte moves. -/
def execHsDone (s : State) : Out :=
  if enabled .hsDone s then .next { s with ckState := .bh0 } else .refused (.notEnabled .hsDone)

end Sys2Proof.Machine
end

