-- ==== Sys2Proof/Machine/MessageHeader.lean ====
section
/-! DEFINITION. The message-header decoder and encoders: 42_message_header.md R150 to R160. Each `MHn`
writes all five presence flags. -/

namespace Sys2Proof.Machine

/-- `MH0` (R151): 11 bytes. -/
def execMh0 (s : State) : Out :=
  if enabled .mh0 s then
    reading .mh0 11 s fun h t => { t with mh := decodeMh0 h, ckState := .payload }
  else .refused (.notEnabled .mh0)

/-- `MH1` (R152): 7 bytes. -/
def execMh1 (s : State) : Out :=
  if enabled .mh1 s then
    reading .mh1 7 s fun h t => { t with mh := decodeMh1 h, ckState := .payload }
  else .refused (.notEnabled .mh1)

/-- `MH2` (R153): 3 bytes. -/
def execMh2 (s : State) : Out :=
  if enabled .mh2 s then
    reading .mh2 3 s fun h t => { t with mh := decodeMh2 h, ckState := .payload }
  else .refused (.notEnabled .mh2)

/-- `MH3` (R154): no bytes, every field absent. -/
def execMh3 (s : State) : Out :=
  if enabled .mh3 s then
    reading .mh3 0 s fun _ t => { t with mh := decodeMh3, ckState := .payload }
  else .refused (.notEnabled .mh3)

/-- `ENC.MH0(ts, len, type, msid)` (R156): the bytes, or a refusal (R160); no state is touched. -/
def execEncMh0 (ts len type msid : Nat) (s : State) : Out :=
  .next (s.answer .encMh0 (encodeMh0 ts len type msid))

/-- `ENC.MH1(tsd, len, type)` (R157). -/
def execEncMh1 (tsd len type : Nat) (s : State) : Out :=
  .next (s.answer .encMh1 (encodeMh1 tsd len type))

/-- `ENC.MH2(tsd)` (R158). -/
def execEncMh2 (tsd : Nat) (s : State) : Out := .next (s.answer .encMh2 (encodeMh2 tsd))

/-- `ENC.MH3()` (R159): no bytes, never refused. -/
def execEncMh3 (s : State) : Out := .next (s.answer .encMh3 encodeMh3)

end Sys2Proof.Machine
end

