-- ==== Sys2Proof/Machine/Payload.lean ====
section
/-! DEFINITION. The payload framer: 43_chunk_reader.md R171, R172. One chunk is one message; there is no
chunk-size limit and no reassembly (R175, R176). -/

namespace Sys2Proof.Machine

/-- `PAYLOAD.LEN` (R171): read exactly `message_length` bytes. -/
def execPayloadLen (s : State) : Out :=
  if enabled .payloadLen s then
    reading .payloadLen s.payloadLength s fun b t => { t with payload := b, ckState := .resolve }
  else .refused (.notEnabled .payloadLen)

/-- `PAYLOAD.NONE` (R172): a header without a length has no payload. -/
def execPayloadNone (s : State) : Out :=
  if enabled .payloadNone s then .next { s with payload := [], ckState := .resolve }
  else .refused (.notEnabled .payloadNone)

end Sys2Proof.Machine
end

