-- ==== Sys2Proof/Machine/Session.lean ====
section
/-! DEFINITION. Dispatch and the host port: 45_session.md R201 to R206. A host write or flush outside
the handler window is refused: nothing of the block changes and the host is told (R208, R223, V9). A
`RETURN` there is refused by the model's choice (log 5). -/

namespace Sys2Proof.Machine

/-- The DELIVER record of the current chunk (R201). -/
def State.delivery (s : State) : Delivery := ⟨s.resType, s.payload, .htx, s.chunk⟩

/-- `DISPATCH` (R201): hand a recognised message to the host; HTX opens. -/
def execDispatch (s : State) : Out :=
  if enabled .dispatch s then
    .next { s with events := s.events ++ [.deliver s.delivery], ckState := .handler }
  else .refused (.notEnabled .dispatch)

/-- `DROP` (R202): one event for a message of unrecognised type; HTX does not open. -/
def execDrop (s : State) : Out :=
  if enabled .drop s then
    .next { s with events := s.events ++ [.drop s.resType], ckState := .bh0 }
  else .refused (.notEnabled .drop)

/-- `HTX.WRITE(s)` (R203): the bytes go out as given, unchecked (D33). A write of no bytes does nothing to TX
(R52); that it leaves no event either, and that a write which fails or is ended by a deadline leaves only the part
that got through (`State.sendPart`), is the model's choice (log 23). -/
def execHtxWrite (bytes : List Byte) (s : State) : Out :=
  if enabled (.htxWrite bytes) s then writing .htxWrite bytes s s id
  else .next (s.log (.refusedCall .htxWrite))

/-- `HTX.FLUSH` (R204). With nothing unflushed: log 30. -/
def execHtxFlush (s : State) : Out :=
  if enabled .htxFlush s then flushing .htxFlush s id else .next (s.log (.refusedCall .htxFlush))

/-- `RETURN` (R206): the handler is finished; the next chunk may be read. Outside the window: log 5. -/
def execRet (s : State) : Out :=
  if enabled .ret s then .next { s with ckState := .bh0 } else .next (s.log (.refusedCall .ret))

end Sys2Proof.Machine
end

