-- ==== Sys2Proof/Machine/Dispatch.lean ====
section
/-! DEFINITION. One arm per operation (30_encoding.md R94), each a direct call of its meaning. -/

namespace Sys2Proof.Machine

def exec (i : Instr) (s : State) : Host.Outcome State Fault Refusal :=
  match i with
  | .hsC0 => Sys2Proof.Machine.execHsC0 s
  | .hsS0 => Sys2Proof.Machine.execHsS0 s
  | .hsS1 t r => Sys2Proof.Machine.execHsS1 t r s
  | .hsC1 => Sys2Proof.Machine.execHsC1 s
  | .hsS2 => Sys2Proof.Machine.execHsS2 s
  | .hsC2 => Sys2Proof.Machine.execHsC2 s
  | .hsDone => Sys2Proof.Machine.execHsDone s
  | .bhB0 => Sys2Proof.Machine.execBhB0 s
  | .bh1 => Sys2Proof.Machine.execBh1 s
  | .bh2 => Sys2Proof.Machine.execBh2 s
  | .bh3 => Sys2Proof.Machine.execBh3 s
  | .encBh1 fmt csid => Sys2Proof.Machine.execEncBh1 fmt csid s
  | .encBh2 fmt csid => Sys2Proof.Machine.execEncBh2 fmt csid s
  | .encBh3 fmt csid => Sys2Proof.Machine.execEncBh3 fmt csid s
  | .mh0 => Sys2Proof.Machine.execMh0 s
  | .mh1 => Sys2Proof.Machine.execMh1 s
  | .mh2 => Sys2Proof.Machine.execMh2 s
  | .mh3 => Sys2Proof.Machine.execMh3 s
  | .encMh0 ts len type msid => Sys2Proof.Machine.execEncMh0 ts len type msid s
  | .encMh1 tsd len type => Sys2Proof.Machine.execEncMh1 tsd len type s
  | .encMh2 tsd => Sys2Proof.Machine.execEncMh2 tsd s
  | .encMh3 => Sys2Proof.Machine.execEncMh3 s
  | .payloadLen => Sys2Proof.Machine.execPayloadLen s
  | .payloadNone => Sys2Proof.Machine.execPayloadNone s
  | .resolveDirect => Sys2Proof.Machine.execResolveDirect s
  | .resolveInherit => Sys2Proof.Machine.execResolveInherit s
  | .update => Sys2Proof.Machine.execUpdate s
  | .dispatch => Sys2Proof.Machine.execDispatch s
  | .drop => Sys2Proof.Machine.execDrop s
  | .htxWrite bytes => Sys2Proof.Machine.execHtxWrite bytes s
  | .htxFlush => Sys2Proof.Machine.execHtxFlush s
  | .ret => Sys2Proof.Machine.execRet s

end Sys2Proof.Machine
end

