-- ==== Sys2Proof/Machine/Turn.lean ====
section
/-! DEFINITION. One step of the whole machine: the outside's next scheduled act (00_scope.md R10, R31),
or the block's turn, which answers a pending host call or runs the one operation that is enabled
(R11, 20_memory.md R66). -/

namespace Sys2Proof.Machine

/-- The block's own next operation, by its control state (R80, R94). -/
def State.fetch (s : State) : Decoded Instr := decode s.ownSite []

/-- The operation the block's turn would run: the oldest pending host call, else its own. -/
def State.nextOp (s : State) : Decoded Instr :=
  match s.hostQ with
  | call :: _ => .ok call.toInstr
  | [] => s.fetch

/-- The block's turn. A pending host call comes first (log 28) and stays pending while it waits. In
mode FAILED with no call pending the run has ended (R267). In `CK_HANDLER` the block waits for the
host (R206, R238): a wait is a step that changes nothing (R258, log 3). The model's choice (log 28): a
pending call is judged as its own operation at this turn, so that behind a `RETURN` an encoder call that
the port took while the handler ran is still answered, and a write or flush is refused. -/
def State.turn (s : State) : Out :=
  match s.hostQ with
  | call :: rest =>
    if blocked call.toInstr s then .next s else exec call.toInstr { s with hostQ := rest }
  | [] =>
    match s.fault.code with
    | .ioError => .fault .ioError
    | .protocolError => .fault .protocolError
    | .noFault =>
      match s.fetch with
      | .ok i => exec i s
      | .reject _ => .next s

/-- `s` with the primitive in which the waiting operation `i` stands answering IoError: `RxRead`, else
`TxWrite` where that is what waits, else `TxFlush`, the write before it going through. -/
def State.primitiveFails (i : Instr) (s : State) : State :=
  { s with
    rxEnd := .failed
    txOk := s.txOk && !s.txWaits (writeBytes i s)
    txFlushOk := false }

/-- The deadline expires (R237): with `IO_DEADLINE` set, an operation that waits in `RxRead`, `TxWrite`
or `TxFlush` runs with that primitive raising IoError, so that its buffer is set and the bytes it has
written stay written (R118, R225); the transport itself stays as it is. Otherwise nothing happens.
Log 16. -/
def State.expire (s : State) : State :=
  match s.nextOp with
  | .ok i =>
    if s.ioDeadline.isSome && blocked i s then
      match exec i { s.primitiveFails i with hostQ := s.hostQ.tail } with
      | .next t => { t with rxEnd := s.rxEnd, txOk := s.txOk, txFlushOk := s.txFlushOk }
      | .fault _ => s
      | .refused _ => s
    else s
  | .reject _ => s

/-- The state after one act of the outside that is not the block's turn (R7, R31, R51, R250). That R7's
'accepted only while a handler runs' is judged when a call arrives over the port, whatever stands in
`hostQ` before it, is the model's choice (log 28), and so is that `rst` is taken on a live connection
(log 31). -/
def State.apply (s : State) (e : EnvEvent) : State :=
  match e with
  | .tick => s
  | .rx bytes => if s.rxEnd = .stillOpen then { s with rxAvail := s.rxAvail ++ bytes } else s
  | .rxClose => if s.rxEnd = .stillOpen then { s with rxEnd := .closed } else s
  | .rxError kept =>
    if s.rxEnd = .stillOpen then { s with rxEnd := .failed, rxAvail := s.rxAvail.take kept } else s
  | .transport ok flushOk ready flushReady =>
    { s with txOk := ok, txFlushOk := flushOk, txReady := ready, txFlushReady := flushReady }
  | .deadline => s.expire
  | .host call => { s with hostQ := s.hostQ ++ [call] }
  | .htx call =>
    if s.htxOpen then { s with hostQ := s.hostQ ++ [call] }
    else s.log (.refusedCall call.toInstr.op)
  | .rst rx => s.newConnection rx

/-- One step. The first step after a fault releases the connection's state (R226, log 7); otherwise
the next scheduled act happens, and where nothing is scheduled it is the block's turn. -/
def State.advance (s : State) : Out :=
  if s.fault.code ≠ .noFault ∧ s.released = false then .next s.release
  else
    match s.env with
    | [] => s.turn
    | .tick :: rest => State.turn { s with env := rest }
    | e :: rest => .next (State.apply { s with env := rest } e)

/-! ## Placing a word of opcode_table.json (log 20) -/

/-- `s` with nothing pending, in mode SESSION at `ck`. -/
def State.atCk (s : State) (ck : CkState) : State :=
  { s with
    fault := { s.fault with code := .noFault }
    released := false
    hsState := .done
    ckState := ck
    env := []
    hostQ := [] }

/-- `s` with nothing pending, in mode HANDSHAKE at `hs`, with a transport that accepts bytes. -/
def State.atHs (s : State) (hs : HsState) : State :=
  { s with
    fault := { s.fault with code := .noFault }
    released := false
    hsState := hs
    ckState := .idle
    env := []
    hostQ := []
    txOk := true
    txFlushOk := true
    txReady := true
    txFlushReady := true }

/-- A basic header whose byte 0 has just been read: the registers as `BH.B0` leaves them, and zero
bytes for what the form still reads. -/
def State.atBhx (s : State) (b0 : Byte) : State :=
  { s.atCk .bhx with
    bhB0 := b0
    bhFmt := fmtOf b0
    bhForm := formOf b0
    rxAvail := List.replicate ((formOf b0).size - 1) 0 ++ s.rxAvail }

/-- A message header of variant `fmt` whose bytes stand next on RX. -/
def State.atMh (s : State) (fmt : Fmt) (bytes : List Byte) : State :=
  { s.atCk .mh with bhFmt := fmt, rxAvail := bytes ++ s.rxAvail }

/-- The host about to make a call. -/
def State.atCall (s : State) (call : HostCall) : State :=
  { s.atCk s.ckState with hsState := s.hsState, hostQ := [call] }

/-- `s` about to run the operation that `decodeTableWord` reads in the word, whose bytes stand where
that operation takes them. A word of no row leaves `s` as it is. -/
def State.placeWord (s : State) (nbits w : Nat) : State :=
  match decodeTableWord nbits w with
  | some .hsS0 => s.atHs .sendS0
  | some .hsC1 => { s.atHs .awaitC1 with rxAvail := wordBytes 1536 w ++ s.rxAvail }
  | some .bh1 => s.atBhx (BitVec.ofNat 8 w)
  | some .bh2 => s.atBhx (BitVec.ofNat 8 w)
  | some .bh3 => s.atBhx (BitVec.ofNat 8 w)
  | some .mh0 => s.atMh 0 (wordBytes 11 w)
  | some .mh1 => s.atMh 1 (wordBytes 7 w)
  | some .mh2 => s.atMh 2 (wordBytes 3 w)
  | some (.encBh1 fmt csid) => s.atCall (.encBh1 fmt csid)
  | some (.encBh2 fmt csid) => s.atCall (.encBh2 fmt csid)
  | some (.encBh3 fmt csid) => s.atCall (.encBh3 fmt csid)
  | _ => s

end Sys2Proof.Machine
end

