-- ==== Sys2Proof/Machine/Step.lean ====
section
/-! DEFINITION. One step of the machine (00_scope.md R11), and placing a word of opcode_table.json so that
the next step runs it. -/

namespace Sys2Proof.Machine

/-- One step: a scheduled act of the outside, or one operation of the block. -/
def step (s : State) : Host.Outcome State Fault Refusal := s.advance

/-- `s` with the operation of the word `w` (as opcode_table.json numbers its bits) next to run. Log 20. -/
def State.withFetchWord (s : State) (nbits w : Nat) : State := s.placeWord nbits w

end Sys2Proof.Machine
end

