-- ==== Sys2Proof/Machine/Status.lean ====
section
/-! DEFINITION. What the host reads on STATUS (10_state.md R34, 45_session.md R208) with the numeric
encodings of R21, R22 and R220, and the derived operating modes (60_exceptions.md R231). -/

namespace Sys2Proof.Machine

/-- `hs_state` on STATUS, 3 bits (R21). -/
def statusHs (h : HsState) : BitVec 3 := BitVec.ofNat 3 h.number

/-- `ck_state` on STATUS, 4 bits (R22). -/
def statusCk (c : CkState) : BitVec 4 := BitVec.ofNat 4 c.number

/-- `fault.code` on STATUS, 2 bits (R23, R220). -/
def statusCode : FaultCode → BitVec 2
  | .noFault => 0
  | .ioError => 1
  | .protocolError => 2

/-- The STATUS registers (R34). -/
structure Status where
  hsState : BitVec 3
  ckState : BitVec 4
  faultCode : BitVec 2
  faultHs : BitVec 3
  faultCk : BitVec 4
  /-- The mnemonic of the raising operation. -/
  faultOp : String
  faultCsid : Csid
  faultOrderly : Bool
  c0Version : Byte
  deriving DecidableEq, Repr

/-- What STATUS shows; reading it changes nothing (R208). -/
def State.status (s : State) : Status where
  hsState := statusHs s.hsState
  ckState := statusCk s.ckState
  faultCode := statusCode s.fault.code
  faultHs := statusHs s.fault.hs
  faultCk := statusCk s.fault.ck
  faultOp := s.fault.op.mnemonic
  faultCsid := s.fault.csid
  faultOrderly := s.fault.orderly
  c0Version := s.c0Version

/-- The operating modes (R231). -/
inductive Mode where
  | handshake | session | failed
  deriving DecidableEq, Repr

/-- The mode is a function of the registers (R231). -/
def State.mode (s : State) : Mode :=
  if s.fault.code = .noFault then
    if s.ckState = .idle then .handshake else .session
  else .failed

end Sys2Proof.Machine
end

