-- ==== Sys2Proof/Safety.lean ====
section
/-! DEFINITION. What claims are stated in: the end of a run (70_reset_and_hazards.md R267), what the peer
can have seen of TX, the byte positions of the handshake (40_handshake.md R121), and the facts about the
registers that every step keeps. -/

namespace Sys2Proof

/-- The operations of the block itself, which the host does not initiate. -/
def Instr.own : Instr → Bool
  | .hsC0 => true
  | .hsS0 => true
  | .hsS1 _ _ => true
  | .hsC1 => true
  | .hsS2 => true
  | .hsC2 => true
  | .hsDone => true
  | .bhB0 => true
  | .bh1 => true
  | .bh2 => true
  | .bh3 => true
  | .encBh1 _ _ => false
  | .encBh2 _ _ => false
  | .encBh3 _ _ => false
  | .mh0 => true
  | .mh1 => true
  | .mh2 => true
  | .mh3 => true
  | .encMh0 _ _ _ _ => false
  | .encMh1 _ _ _ => false
  | .encMh2 _ => false
  | .encMh3 => false
  | .payloadLen => true
  | .payloadNone => true
  | .resolveDirect => true
  | .resolveInherit => true
  | .update => true
  | .dispatch => true
  | .drop => true
  | .htxWrite _ => false
  | .htxFlush => false
  | .ret => false

/-- The successors of each `ck_state` (R22, R38). -/
def CkState.successors : CkState → List CkState
  | .idle => [.bh0]
  | .bh0 => [.bhx]
  | .bhx => [.mh]
  | .mh => [.payload]
  | .payload => [.resolve]
  | .resolve => [.update]
  | .update => [.dispatch]
  | .dispatch => [.handler, .bh0]
  | .handler => [.bh0]

end Sys2Proof

namespace Sys2Proof.Machine

/-- A run has ended exactly when `fault.code` is non-zero (R267). -/
def State.ended (s : State) : Prop := s.fault.code ≠ .noFault

/-- A normal end: IoError with `orderly = 1` (R267). -/
def State.normalEnd (s : State) : Prop := s.fault.code = .ioError ∧ s.fault.orderly = true

/-- The bytes of TX in a record of events, in order (R12, R52). -/
def txStream : List Event → List Byte
  | [] => []
  | .tx bytes :: rest => bytes ++ txStream rest
  | _ :: rest => txStream rest

/-- What a step puts on TX: the bytes of a write, the part of a failed one that got through, a flush. -/
def Event.onTx : Event → Bool
  | .tx _ => true
  | .txPart _ => true
  | .flush => true
  | .deliver _ => false
  | .drop _ => false
  | .encoded _ _ => false
  | .refusedCall _ => false

/-- What a record says of TX, in order. -/
def txActs (events : List Event) : List Event := events.filter Event.onTx

/-- The bytes of TX after the last flush point of a record, `held` being those before it. -/
def unflushedFrom (held : List Byte) : List Event → List Byte
  | [] => held
  | .tx bytes :: rest => unflushedFrom (held ++ bytes) rest
  | .flush :: rest => unflushedFrom [] rest
  | _ :: rest => unflushedFrom held rest

/-- Bytes of RX consumed when the handshake stands in a state (R63, R121). -/
def handshakeRx : HsState → Nat
  | .awaitC0 => 0
  | .sendS0 => 1
  | .sendS1 => 1
  | .awaitC1 => 1
  | .sendS2 => 1537
  | .awaitC2 => 1537
  | .done => 3073

/-- Bytes of TX written when the handshake stands in a state (R63, R121). -/
def handshakeTx : HsState → Nat
  | .awaitC0 => 0
  | .sendS0 => 0
  | .sendS1 => 1
  | .awaitC1 => 1537
  | .sendS2 => 1537
  | .awaitC2 => 3073
  | .done => 3073

/-- The presence flags are those of variant `fmt` (R25, the table's last column). -/
def headerOf (fmt : Fmt) (h : MsgHeader) : Prop :=
  h.ts.isSome = decide (fmt = 0) ∧
  h.tsd.isSome = decide (fmt = 1 ∨ fmt = 2) ∧
  h.len.isSome = decide (fmt = 0 ∨ fmt = 1) ∧
  h.type.isSome = decide (fmt = 0 ∨ fmt = 1) ∧
  h.msid.isSome = decide (fmt = 0)

/-- What every step keeps. The clauses about control state and current chunk speak of a live connection
(`fault.code = None`), since after a fault the registers are unspecified (R36). -/
structure State.Inv (s : State) : Prop where
  /-- The register file is in canonical form. -/
  cst_wf : s.cst.wf = true
  /-- Only decodable ids have entries (R27: entries 0 and 1 are never written). -/
  cst_ids : s.fault.code = .noFault → ∀ cell ∈ s.cst, Config.csidMin ≤ cell.1
  /-- The handshake buffers have their sizes (R28). -/
  sizes : s.c0.length = 1 ∧ s.c1.length = 1536 ∧ s.c2.length = 1536 ∧
    s.s0.length = 1 ∧ s.s1.length = 1536 ∧ s.s2.length = 1536
  /-- The payload buffer holds at most `MAX_MSG_LEN` bytes (R26). -/
  payload_max : s.payload.length ≤ Config.maxMsgLen
  /-- Only an ended connection is released (R226). -/
  released_ended : s.released = true → s.fault.code ≠ .noFault
  /-- `ck_state != CK_IDLE` implies `hs_state = Done` (R22). -/
  chunk_done : s.fault.code = .noFault → s.ckState ≠ .idle → s.hsState = .done
  /-- From `CK_BHX` on, `bh_fmt` and `bh_form` are those of `bh_b0` (R130). -/
  header_byte : s.fault.code = .noFault → 2 ≤ s.ckState.number →
    s.bhFmt = fmtOf s.bhB0 ∧ s.bhForm = formOf s.bhB0
  /-- From `CK_MH` on, `bh_csid` is in 2 to 65599 (R135). -/
  csid_range : s.fault.code = .noFault → 3 ≤ s.ckState.number →
    Config.csidMin ≤ s.bhCsid.toNat ∧ s.bhCsid.toNat ≤ Config.csidMax
  /-- From `CK_PAYLOAD` on, the presence flags are those of `bh_fmt` (R25). -/
  header_flags : s.fault.code = .noFault → 4 ≤ s.ckState.number → headerOf s.bhFmt s.mh
  /-- From `CK_RESOLVE` on, the payload has `message_length` bytes, or none (R173). -/
  payload_len : s.fault.code = .noFault → 5 ≤ s.ckState.number →
    s.payload.length = s.payloadLength
  /-- From `CK_DISPATCH` on, the entry of the chunk's id holds its resolved type (R257). -/
  entry_written : s.fault.code = .noFault → 7 ≤ s.ckState.number →
    s.cst.read s.entry = some s.resType
  /-- A handler runs only for a known type (R201). -/
  handler_known : s.fault.code = .noFault → s.ckState = .handler → s.known = true

/-- The byte positions of the handshake (R121): as long as no chunk has been begun. -/
def State.handshakePositions (s : State) : Prop :=
  s.fault.code = .noFault → s.ckState = .idle →
    s.rxPos = handshakeRx s.hsState ∧ s.txPos = handshakeTx s.hsState

/-- `tx_pos` counts the bytes of the TX record, and the bytes not yet flushed are those after its last
flush point (R30, R31, R65). -/
def State.txRecord (s : State) : Prop :=
  s.txPos = (txStream s.events).length ∧ s.txPending = unflushedFrom [] s.events

/-- `s` with the buffer set that a sending handshake operation sets before it writes (R112, R113, R115);
no other operation sets one. -/
def State.withBuffer (i : Instr) (s : State) : State :=
  match i with
  | .hsC0 => s
  | .hsS0 => { s with s0 := [3] }
  | .hsS1 t r => { s with s1 := encodeUnit (.s1 t r) }
  | .hsC1 => s
  | .hsS2 => { s with s2 := s.s2Bytes }
  | .hsC2 => s
  | .hsDone => s
  | .bhB0 => s
  | .bh1 => s
  | .bh2 => s
  | .bh3 => s
  | .encBh1 _ _ => s
  | .encBh2 _ _ => s
  | .encBh3 _ _ => s
  | .mh0 => s
  | .mh1 => s
  | .mh2 => s
  | .mh3 => s
  | .encMh0 _ _ _ _ => s
  | .encMh1 _ _ _ => s
  | .encMh2 _ => s
  | .encMh3 => s
  | .payloadLen => s
  | .payloadNone => s
  | .resolveDirect => s
  | .resolveInherit => s
  | .update => s
  | .dispatch => s
  | .drop => s
  | .htxWrite _ => s
  | .htxFlush => s
  | .ret => s

/-- The state an answer goes on with, changed by `f`; a fault or a refusal stays. -/
def mapNext (f : State → State) : Out → Out
  | .next t => .next (f t)
  | .fault r => .fault r
  | .refused r => .refused r

/-- The next scheduled act is not a reset. -/
def State.noReset (s : State) : Prop := ∀ rx rest, s.env ≠ .rst rx :: rest

end Sys2Proof.Machine
end

