-- ==== Sys2Proof/Certificates/Slice0/Obligations.lean ====
section
/-! DEFINITION. The statements about the model, for the provers. Each docstring names the rule of spec/
it formalises and, where a clause rests on a choice of the model, the log entry. -/

open Sys2Proof Sys2Proof.Machine

/-! ## Reset and the step -/

/-- R35, R251: what reset leaves, for the registers the spec gives a value. -/
def Obligations.ResetStartsAnEmptyConnection : Prop :=
  State.reset.hsState = .awaitC0 ∧ State.reset.ckState = .idle ∧
  State.reset.fault.code = .noFault ∧
  (∀ i, State.reset.cst.read i = none) ∧
  State.reset.rxPos = 0 ∧ State.reset.txPos = 0 ∧
  State.reset.rxEnd = .stillOpen ∧ State.reset.txPending = [] ∧ State.reset.events = [] ∧
  State.reset.txOk = true

/-- R250, R251: `rst` starts a new connection with the state of reset, in any mode, and it is the only
way out of FAILED (`FailedModeIsLeftOnlyByReset`). The parameters stay (R252). The model's choice: that
`rst` is taken on a live connection (log 31), the schedule and the connection's number (log 22), the registers R35 gives no value (log 9), a transport that
flushes and makes nobody wait (log 14), and 3073 bytes of inbound buffers (log 29). -/
def Obligations.RstStartsANewConnection : Prop :=
  ∀ (s : State) (rx : List Byte) (rest : List EnvEvent),
    s.env = .rst rx :: rest → (s.fault.code = .noFault ∨ s.released = true) →
    step s = .next
      { State.reset with
        rxAvail := rx
        knownTypes := s.knownTypes
        ioDeadline := s.ioDeadline
        env := rest
        conn := s.conn + 1 }

/-- R11, R66 (b): where nothing is scheduled and no host call pends, a step of a live connection is
`exec` of the operation the control state selects; a scheduled `tick` is the same turn; and where the
control state selects none, the block is in `CK_HANDLER` and waits (R206, R258). That a scheduled `tick`
is a turn of the block, and that the block has every turn where nothing is scheduled, is the model's
choice (log 2); that a wait is a step which changes nothing is the model's reading (log 3). -/
def Obligations.StepRunsTheSelectedOperation : Prop :=
  ∀ (s : State), s.fault.code = .noFault → s.hostQ = [] →
    (∀ i, s.fetch = .ok i → (s.env = [] → step s = exec i s) ∧
      (∀ rest, s.env = .tick :: rest → step s = exec i { s with env := rest })) ∧
    (∀ r, s.fetch = .reject r → s.ckState = .handler ∧ (s.env = [] → step s = .next s))

/-- R208, R13: a pending host call is answered by `exec` of the operation it is, and stays pending while
it waits. That it comes before the block's own operation is the model's choice (log 28), and so is that
a call pending in mode FAILED is still answered (log 24), which no rule says. -/
def Obligations.StepAnswersAHostCall : Prop :=
  ∀ (s : State) (call : HostCall) (rest : List HostCall),
    (s.fault.code = .noFault ∨ s.released = true) → s.env = [] → s.hostQ = call :: rest →
    (blocked call.toInstr s = false → step s = exec call.toInstr { s with hostQ := rest }) ∧
    (blocked call.toInstr s = true → step s = .next s)

/-- R80, R94, R110, R150: which operation the control state selects. Clauses are over disjoint control
states; `t` and `r` are the draws. -/
def Obligations.ControlStateSelectsTheOperation : Prop :=
  ∀ (s : State), s.fault.code = .noFault →
    (s.ckState = .idle →
      (s.hsState = .awaitC0 → s.fetch = .ok .hsC0) ∧
      (s.hsState = .sendS0 → s.fetch = .ok .hsS0) ∧
      (s.hsState = .sendS1 → ∃ t r, s.fetch = .ok (.hsS1 t r)) ∧
      (s.hsState = .awaitC1 → s.fetch = .ok .hsC1) ∧
      (s.hsState = .sendS2 → s.fetch = .ok .hsS2) ∧
      (s.hsState = .awaitC2 → s.fetch = .ok .hsC2) ∧
      (s.hsState = .done → s.fetch = .ok .hsDone)) ∧
    (s.ckState = .bh0 → s.fetch = .ok .bhB0) ∧
    (s.ckState = .bhx →
      (s.bhForm = .one → s.fetch = .ok .bh1) ∧
      (s.bhForm = .two → s.fetch = .ok .bh2) ∧
      (s.bhForm = .three → s.fetch = .ok .bh3)) ∧
    (s.ckState = .mh →
      (s.bhFmt = 0 → s.fetch = .ok .mh0) ∧ (s.bhFmt = 1 → s.fetch = .ok .mh1) ∧
      (s.bhFmt = 2 → s.fetch = .ok .mh2) ∧ (s.bhFmt = 3 → s.fetch = .ok .mh3)) ∧
    (s.ckState = .payload →
      s.fetch = .ok (if s.mh.len.isSome then .payloadLen else .payloadNone)) ∧
    (s.ckState = .resolve →
      s.fetch = .ok (if s.mh.type.isSome then .resolveDirect else .resolveInherit)) ∧
    (s.ckState = .update → s.fetch = .ok .update) ∧
    (s.ckState = .dispatch →
      s.fetch = .ok (if s.resType ∈ s.knownTypes then .dispatch else .drop))

/-- R110, R150, R66 (b): in every state that meets the invariant, an own operation of the block that is
enabled is the one selected; where none is selected (`CK_HANDLER`, FAILED) none is enabled. -/
def Obligations.OnlyTheSelectedOperationIsEnabled : Prop :=
  ∀ (s : State) (i : Instr), s.Inv → i.own = true → enabled i s = true →
    ∃ j, s.fetch = .ok j ∧ i.op = j.op

/-- R51, R31: what the transport's acts do to RX. Bytes arrive in order behind those waiting; an orderly
close loses none; an error may lose any suffix; after either nothing arrives (R7; that such an act of the
schedule is passed over is log 15). -/
def Obligations.RxArrivesInOrderUntilItEnds : Prop :=
  ∀ (s : State) (rest : List EnvEvent), s.fault.code = .noFault →
    (∀ bytes, s.env = .rx bytes :: rest → s.rxEnd = .stillOpen →
      step s = .next { s with env := rest, rxAvail := s.rxAvail ++ bytes }) ∧
    (s.env = .rxClose :: rest → s.rxEnd = .stillOpen →
      step s = .next { s with env := rest, rxEnd := .closed }) ∧
    (∀ kept, s.env = .rxError kept :: rest → s.rxEnd = .stillOpen →
      step s = .next { s with env := rest, rxEnd := .failed, rxAvail := s.rxAvail.take kept }) ∧
    (∀ bytes, s.env = .rx bytes :: rest → s.rxEnd ≠ .stillOpen →
      step s = .next { s with env := rest })

/-! ## Decoding -/

/-- R81, R82, R87, R89: words written out from the rows of opcode_table.json: S0's constant `00000011`; the
five patterns of BH1 at ids 32, 16, 8, 4, 2; `ff000000`, `ff000001`; an encoded `00 05` and `01 A8 03`.
How a word names a row is log 20. -/
def Obligations.RowWordsDecodeToTheirRows : Prop :=
  decodeTableWord 8 0b00000011 = some .hsS0 ∧
  decodeTableWord 8 0b00100000 = some .bh1 ∧
  decodeTableWord 8 0b11010000 = some .bh1 ∧
  decodeTableWord 8 0b00001000 = some .bh1 ∧
  decodeTableWord 8 0b01000100 = some .bh1 ∧
  decodeTableWord 8 0b00000010 = some .bh1 ∧
  decodeTableWord 8 0b10000000 = some .bh2 ∧
  decodeTableWord 8 0b11000001 = some .bh3 ∧
  decodeTableWord 16 0x0005 = some (.encBh2 0 69) ∧
  decodeTableWord 24 0x01A803 = some (.encBh3 0 1000)

/-- R82: of the seven rows over `bh_b0` exactly one matches any byte, and it is the operation the form
selects. -/
def Obligations.EveryHeaderByteHasOneRow : Prop :=
  ∀ b : Byte, ∃ row ∈ bhxRows, rowMatches b row = true ∧ row.2.2 = selectBhx (formOf b) ∧
    ∀ other ∈ bhxRows, rowMatches b other = true → other = row

/-- Decode and encode agree: every well-formed operation is what the decoder reads at its site from the
bytes its operands fix (R113, R138 to R140, R156 to R159, R203). -/
def Obligations.DecodeOfEncodeIsTheInstruction : Prop :=
  ∀ i : Instr, i.wf = true → decode i.site (encode i) = .ok i

/-- Every well-formed wire unit of the notation of R95 is read back from its bytes, whatever follows it
(R80 to R91). -/
def Obligations.WireUnitsReadBack : Prop :=
  ∀ (u : WireUnit) (rest : List Byte), u.wf = true →
    decodeUnit u.kind (encodeUnit u ++ rest) = .ok (u, rest)

/-! ## The handshake operations -/

/-- R111: `HS.C0`. -/
def Obligations.HsC0StoresTheVersionByte : Prop :=
  ∀ (s : State) (b : Byte) (rest : List Byte),
    s.fault.code = .noFault → s.hsState = .awaitC0 → s.rxAvail = b :: rest →
    exec .hsC0 s = .next
      { s with
        c0 := [b]
        c0Version := b
        hsState := .sendS0
        rxAvail := rest
        rxPos := s.rxPos + 1 }

/-- R112: `HS.S0`. The byte is 3 whatever `c0_version` is; there is no flush. -/
def Obligations.HsS0SendsVersionThree : Prop :=
  ∀ (s : State), s.fault.code = .noFault → s.hsState = .sendS0 →
    s.txOk = true → s.txReady = true →
    exec .hsS0 s = .next
      { s with
        s0 := [3]
        hsState := .sendS1
        txPending := s.txPending ++ [3]
        txPos := s.txPos + 1
        events := s.events ++ [.tx [3]] }

/-- R113: `HS.S1`, for every draw: time (most significant byte first, R57), four zero bytes, the random
block, then a flush. -/
def Obligations.HsS1SendsTimeZeroAndRandom : Prop :=
  ∀ (s : State) (t : Word32) (r : RandomBlock), s.fault.code = .noFault → s.hsState = .sendS1 →
    s.txOk = true → s.txFlushOk = true → s.txReady = true → s.txFlushReady = true →
    ∀ packet, packet = [BitVec.ofNat 8 (t.toNat / 2 ^ 24), BitVec.ofNat 8 (t.toNat / 2 ^ 16),
        BitVec.ofNat 8 (t.toNat / 2 ^ 8), BitVec.ofNat 8 t.toNat, 0, 0, 0, 0] ++ r.toList →
    exec (.hsS1 t r) s = .next
      { s with
        s1 := packet
        hsState := .awaitC1
        txPending := []
        txPos := s.txPos + 1536
        events := s.events ++ [.tx packet, .flush] }

/-- R114: `HS.C1`. -/
def Obligations.HsC1StoresTheClientPacket : Prop :=
  ∀ (s : State), s.fault.code = .noFault → s.hsState = .awaitC1 → 1536 ≤ s.rxAvail.length →
    exec .hsC1 s = .next
      { s with
        c1 := s.rxAvail.take 1536
        hsState := .sendS2
        rxAvail := s.rxAvail.drop 1536
        rxPos := s.rxPos + 1536 }

/-- R115: `HS.S2`: C1's time, four zero bytes, C1's random block, then a flush; C1's second field is not
echoed. -/
def Obligations.HsS2EchoesTimeAndRandom : Prop :=
  ∀ (s : State) (time second random : List Byte), s.fault.code = .noFault → s.hsState = .sendS2 →
    s.txOk = true → s.txFlushOk = true → s.txReady = true → s.txFlushReady = true →
    s.c1 = time ++ second ++ random → time.length = 4 → second.length = 4 → random.length = 1528 →
    exec .hsS2 s = .next
      { s with
        s2 := time ++ [0, 0, 0, 0] ++ random
        hsState := .awaitC2
        txPending := []
        txPos := s.txPos + 1536
        events := s.events ++ [.tx (time ++ [0, 0, 0, 0] ++ random), .flush] }

/-- R116, R28: `HS.C2` accepts any 1536 bytes and ends the handshake; from there the six handshake
buffers are unspecified (C5): nothing is said of their content, and nothing else changes. -/
def Obligations.HsC2EndsTheHandshake : Prop :=
  ∀ (s : State), s.fault.code = .noFault → s.hsState = .awaitC2 → 1536 ≤ s.rxAvail.length →
    ∃ b0 b1 b2 b3 b4 b5 : List Byte, exec .hsC2 s = .next
      { s with
        hsState := .done
        rxAvail := s.rxAvail.drop 1536
        rxPos := s.rxPos + 1536
        c0 := b0
        c1 := b1
        c2 := b2
        s0 := b3
        s1 := b4
        s2 := b5 }

/-- R117: `HS.DONE`. -/
def Obligations.HsDoneOpensTheChunkPath : Prop :=
  ∀ (s : State), s.fault.code = .noFault → s.hsState = .done → s.ckState = .idle →
    exec .hsDone s = .next { s with ckState := .bh0 }

/-! ## The basic header -/

/-- R130: `BH.B0`: `fmt` is bits 7:6 and the selector bits 5:0 of the byte, whichever of the 256 it is;
IoError where RX has ended with no byte left. -/
def Obligations.BhB0SelectsTheForm : Prop :=
  ∀ (s : State), s.fault.code = .noFault → s.ckState = .bh0 →
    (∀ (b : Byte) (rest : List Byte), s.rxAvail = b :: rest →
      exec .bhB0 s = .next
        { s with
          bhB0 := b
          bhFmt := BitVec.ofNat 2 (b.toNat / 64)
          bhForm := if b.toNat % 64 = 0 then .two else if b.toNat % 64 = 1 then .three else .one
          ckState := .bhx
          rxAvail := rest
          rxPos := s.rxPos + 1 }) ∧
    (s.rxAvail = [] → s.rxEnd ≠ .stillOpen → exec .bhB0 s = .next (s.raise .ioError .bhB0))

/-- R131: `BH1` reads nothing and never fails; where `bh_form` is the form of `bh_b0`, as `BH.B0` leaves
it, the id is in 2 to 63. -/
def Obligations.Bh1TakesTheIdFromByteZero : Prop :=
  ∀ (s : State), s.fault.code = .noFault → s.ckState = .bhx → s.bhForm = .one →
    exec .bh1 s = .next { s with bhCsid := BitVec.ofNat 17 (s.bhB0.toNat % 64), ckState := .mh } ∧
    (formOf s.bhB0 = .one → 2 ≤ s.bhB0.toNat % 64 ∧ s.bhB0.toNat % 64 ≤ 63)

/-- R132, R133, R56: `BH2` reads one byte and adds 64; `BH3` reads two, the second byte of the header being
the low part; IoError where RX has ended with fewer bytes, none of them consumed. -/
def Obligations.Bh2AndBh3ReadTheIdBytes : Prop :=
  ∀ (s : State) (b c : Byte) (rest : List Byte), s.fault.code = .noFault → s.ckState = .bhx →
    (s.bhForm = .two → s.rxAvail = b :: rest →
      exec .bh2 s = .next
        { s with
          bhCsid := BitVec.ofNat 17 (b.toNat + 64)
          ckState := .mh
          rxAvail := rest
          rxPos := s.rxPos + 1 }) ∧
    (s.bhForm = .three → s.rxAvail = b :: c :: rest →
      exec .bh3 s = .next
        { s with
          bhCsid := BitVec.ofNat 17 (c.toNat * 256 + b.toNat + 64)
          ckState := .mh
          rxAvail := rest
          rxPos := s.rxPos + 2 }) ∧
    (s.bhForm = .two → s.rxAvail.length < 1 → s.rxEnd ≠ .stillOpen →
      exec .bh2 s = .next (s.raise .ioError .bh2)) ∧
    (s.bhForm = .three → s.rxAvail.length < 2 → s.rxEnd ≠ .stillOpen →
      exec .bh3 s = .next (s.raise .ioError .bh3))

/-- R138 to R141: the basic-header encoders, in range and out of range, touching no state of the block;
`encode` takes the smallest form. That they answer in every mode is the model's reading of rules that
differ (log 18), and the refusal as an event of the record log 5. -/
def Obligations.BasicHeaderEncodersAnswerOrRefuse : Prop :=
  ∀ (s : State) (fmt csid : Nat),
    exec (.encBh1 fmt csid) s = .next { s with events := s.events ++
      [if fmt ≤ 3 ∧ 2 ≤ csid ∧ csid ≤ 63 then .encoded .encBh1 [BitVec.ofNat 8 (fmt * 64 + csid)]
        else .refusedCall .encBh1] } ∧
    exec (.encBh2 fmt csid) s = .next { s with events := s.events ++
      [if fmt ≤ 3 ∧ 64 ≤ csid ∧ csid ≤ 319 then
          .encoded .encBh2 [BitVec.ofNat 8 (fmt * 64), BitVec.ofNat 8 (csid - 64)]
        else .refusedCall .encBh2] } ∧
    exec (.encBh3 fmt csid) s = .next { s with events := s.events ++
      [if fmt ≤ 3 ∧ 64 ≤ csid ∧ csid ≤ 65599 then
          .encoded .encBh3 [BitVec.ofNat 8 (fmt * 64 + 1), BitVec.ofNat 8 ((csid - 64) % 256),
            BitVec.ofNat 8 ((csid - 64) / 256)]
        else .refusedCall .encBh3] } ∧
    encodeBh fmt csid =
      (if csid ≤ 63 then encodeBh1 fmt csid else if csid ≤ 319 then encodeBh2 fmt csid
        else encodeBh3 fmt csid) ∧
    (encodeBh fmt csid = none ↔ ¬(fmt ≤ 3 ∧ 2 ≤ csid ∧ csid ≤ 65599))

/-- R142: what the encoders write, `BH.B0` and then the form's operation read back exactly, consuming
1, 2 or 3 bytes. Conversely re-encoding a decoded basic header gives its bytes back, unless it was a
3-byte form with third byte 0, which re-encodes as the 2-byte form. -/
def Obligations.BasicHeaderRoundTrip : Prop :=
  (∀ (s : State) (fmt csid : Nat) (bytes rest : List Byte),
    s.fault.code = .noFault → s.ckState = .bh0 → s.rxAvail = bytes ++ rest →
    (encodeBh1 fmt csid = some bytes → ∃ t u, exec .bhB0 s = .next t ∧ exec .bh1 t = .next u ∧
      u.bhFmt.toNat = fmt ∧ u.bhCsid.toNat = csid ∧ u.rxAvail = rest ∧ u.rxPos = s.rxPos + 1) ∧
    (encodeBh2 fmt csid = some bytes → ∃ t u, exec .bhB0 s = .next t ∧ exec .bh2 t = .next u ∧
      u.bhFmt.toNat = fmt ∧ u.bhCsid.toNat = csid ∧ u.rxAvail = rest ∧ u.rxPos = s.rxPos + 2) ∧
    (encodeBh3 fmt csid = some bytes → ∃ t u, exec .bhB0 s = .next t ∧ exec .bh3 t = .next u ∧
      u.bhFmt.toNat = fmt ∧ u.bhCsid.toNat = csid ∧ u.rxAvail = rest ∧
      u.rxPos = s.rxPos + 3)) ∧
  (∀ (bytes : List Byte) (form : BhForm) (fmt : Fmt) (csid : Nat),
    decodeBh bytes = .ok (.bh form fmt csid, []) →
    (form = .three ∧ csid ≤ 319 → encodeBh fmt.toNat csid =
      some [BitVec.ofNat 8 (fmt.toNat * 64), BitVec.ofNat 8 (csid - 64)]) ∧
    (¬(form = .three ∧ csid ≤ 319) → encodeBh fmt.toNat csid = some bytes))

/-! ## The message header -/

/-- R151, R54, R55: `MH0`: three big-endian bytes of timestamp and of length, the type byte, four
little-endian bytes of stream id; `timestamp_delta` is absent. IoError where RX has ended with fewer. -/
def Obligations.Mh0DecodesElevenBytes : Prop :=
  ∀ (s : State), s.fault.code = .noFault → s.ckState = .mh → s.bhFmt = 0 →
    (∀ (a0 a1 a2 l0 l1 l2 y m0 m1 m2 m3 : Byte) (rest : List Byte),
      s.rxAvail = [a0, a1, a2, l0, l1, l2, y, m0, m1, m2, m3] ++ rest →
      exec .mh0 s = .next
        { s with
          mh :=
            { ts := some (BitVec.ofNat 24 (a0.toNat * 65536 + a1.toNat * 256 + a2.toNat))
              tsd := none
              len := some (BitVec.ofNat 24 (l0.toNat * 65536 + l1.toNat * 256 + l2.toNat))
              type := some y
              msid := some (BitVec.ofNat 32
                (m0.toNat + m1.toNat * 2 ^ 8 + m2.toNat * 2 ^ 16 + m3.toNat * 2 ^ 24)) }
          ckState := .payload
          rxAvail := rest
          rxPos := s.rxPos + 11 }) ∧
    (s.rxAvail.length < 11 → s.rxEnd ≠ .stillOpen →
      exec .mh0 s = .next (s.raise .ioError .mh0))

/-- R152: `MH1`: `timestamp` and `message_stream_id` are absent, whatever the chunk before had. IoError
where RX has ended with fewer than 7 bytes. -/
def Obligations.Mh1DecodesSevenBytes : Prop :=
  ∀ (s : State), s.fault.code = .noFault → s.ckState = .mh → s.bhFmt = 1 →
    (∀ (a0 a1 a2 l0 l1 l2 y : Byte) (rest : List Byte),
      s.rxAvail = [a0, a1, a2, l0, l1, l2, y] ++ rest →
      exec .mh1 s = .next
        { s with
          mh :=
            { ts := none
              tsd := some (BitVec.ofNat 24 (a0.toNat * 65536 + a1.toNat * 256 + a2.toNat))
              len := some (BitVec.ofNat 24 (l0.toNat * 65536 + l1.toNat * 256 + l2.toNat))
              type := some y
              msid := none }
          ckState := .payload
          rxAvail := rest
          rxPos := s.rxPos + 7 }) ∧
    (s.rxAvail.length < 7 → s.rxEnd ≠ .stillOpen →
      exec .mh1 s = .next (s.raise .ioError .mh1))

/-- R153, R154: `MH2` reads three bytes and only `timestamp_delta` is present; `MH3` reads nothing, never
waits and never fails, and every field is absent. IoError at `MH2` where RX has ended with fewer than 3
bytes. -/
def Obligations.Mh2AndMh3LeaveFieldsAbsent : Prop :=
  ∀ (s : State) (a0 a1 a2 : Byte) (rest : List Byte), s.fault.code = .noFault → s.ckState = .mh →
    (s.bhFmt = 2 → s.rxAvail = [a0, a1, a2] ++ rest →
      exec .mh2 s = .next
        { s with
          mh :=
            { ts := none
              tsd := some (BitVec.ofNat 24 (a0.toNat * 65536 + a1.toNat * 256 + a2.toNat))
              len := none
              type := none
              msid := none }
          ckState := .payload
          rxAvail := rest
          rxPos := s.rxPos + 3 }) ∧
    (s.bhFmt = 3 →
      exec .mh3 s = .next
        { s with
          mh := { ts := none, tsd := none, len := none, type := none, msid := none }
          ckState := .payload }) ∧
    (s.bhFmt = 2 → s.rxAvail.length < 3 → s.rxEnd ≠ .stillOpen →
      exec .mh2 s = .next (s.raise .ioError .mh2))

/-- R156 to R160: the message-header encoders, in range and out of range. That they answer in every mode
is the model's reading of rules that differ (log 18), and the refusal as an event of the record log 5. -/
def Obligations.MessageHeaderEncodersAnswerOrRefuse : Prop :=
  ∀ (s : State) (ts len type msid : Nat),
    exec (.encMh0 ts len type msid) s = .next { s with events := s.events ++
      [if ts < 2 ^ 24 ∧ len < 2 ^ 24 ∧ type < 2 ^ 8 ∧ msid < 2 ^ 32 then
          .encoded .encMh0
            [BitVec.ofNat 8 (ts / 2 ^ 16), BitVec.ofNat 8 (ts / 2 ^ 8), BitVec.ofNat 8 ts,
              BitVec.ofNat 8 (len / 2 ^ 16), BitVec.ofNat 8 (len / 2 ^ 8), BitVec.ofNat 8 len,
              BitVec.ofNat 8 type,
              BitVec.ofNat 8 msid, BitVec.ofNat 8 (msid / 2 ^ 8), BitVec.ofNat 8 (msid / 2 ^ 16),
              BitVec.ofNat 8 (msid / 2 ^ 24)]
        else .refusedCall .encMh0] } ∧
    exec (.encMh1 ts len type) s = .next { s with events := s.events ++
      [if ts < 2 ^ 24 ∧ len < 2 ^ 24 ∧ type < 2 ^ 8 then
          .encoded .encMh1
            [BitVec.ofNat 8 (ts / 2 ^ 16), BitVec.ofNat 8 (ts / 2 ^ 8), BitVec.ofNat 8 ts,
              BitVec.ofNat 8 (len / 2 ^ 16), BitVec.ofNat 8 (len / 2 ^ 8), BitVec.ofNat 8 len,
              BitVec.ofNat 8 type]
        else .refusedCall .encMh1] } ∧
    exec (.encMh2 ts) s = .next { s with events := s.events ++
      [if ts < 2 ^ 24 then
          .encoded .encMh2
            [BitVec.ofNat 8 (ts / 2 ^ 16), BitVec.ofNat 8 (ts / 2 ^ 8), BitVec.ofNat 8 ts]
        else .refusedCall .encMh2] } ∧
    exec .encMh3 s = .next { s with events := s.events ++ [.encoded .encMh3 []] }

/-- R161: decoding `ENC.MHn` of fields in range with `MHn` gives exactly those fields back, absent ones
absent, and consumes exactly 11, 7, 3 or 0 bytes. Conversely any 11, 7 or 3 bytes are given back by
`ENC.MHn` of the fields `MHn` reads in them. -/
def Obligations.MessageHeaderRoundTrip : Prop :=
  (∀ (s : State) (fmt : Fmt) (h : MsgHeader) (bytes rest : List Byte),
    encodeMh fmt.toNat h = some bytes → s.fault.code = .noFault → s.ckState = .mh →
    s.bhFmt = fmt → s.rxAvail = bytes ++ rest →
    exec (selectMh fmt) s = .next
      { s with
        mh := h
        ckState := .payload
        rxAvail := rest
        rxPos := s.rxPos + mhSize fmt }) ∧
  (∀ bytes : List Byte,
    (bytes.length = 11 → encodeMh 0 (decodeMh0 bytes) = some bytes) ∧
    (bytes.length = 7 → encodeMh 1 (decodeMh1 bytes) = some bytes) ∧
    (bytes.length = 3 → encodeMh 2 (decodeMh2 bytes) = some bytes))

/-! ## Payload, register file, dispatch -/

/-- R171, R172: `PAYLOAD.LEN` reads exactly `message_length` bytes (with length 0 it never waits or
fails), and raises IoError, delivering nothing of a short payload, where RX has ended with fewer;
`PAYLOAD.NONE`, where the header has no length, reads none and the payload is empty. -/
def Obligations.PayloadHasTheHeadersLength : Prop :=
  ∀ (s : State), s.fault.code = .noFault → s.ckState = .payload →
    (∀ n : Word24, s.mh.len = some n → n.toNat ≤ s.rxAvail.length →
      exec .payloadLen s = .next
        { s with
          payload := s.rxAvail.take n.toNat
          ckState := .resolve
          rxAvail := s.rxAvail.drop n.toNat
          rxPos := s.rxPos + n.toNat }) ∧
    (∀ n : Word24, s.mh.len = some n → s.rxAvail.length < n.toNat → s.rxEnd ≠ .stillOpen →
      exec .payloadLen s = .next (s.raise .ioError .payloadLen)) ∧
    (s.mh.len = none → exec .payloadNone s = .next { s with payload := [], ckState := .resolve })

/-- R186, R187: `RESOLVE.DIRECT` takes the header's type whatever the register file holds;
`RESOLVE.INHERIT` takes the type of a valid entry, and raises ProtocolError where the entry is not
valid. An index of 65600 or more is no entry (log 10). -/
def Obligations.ResolveTakesHeaderOrEntryType : Prop :=
  ∀ (s : State) (y : Byte), s.fault.code = .noFault → s.ckState = .resolve →
    (s.mh.type = some y →
      exec .resolveDirect s = .next { s with resType := y, ckState := .update }) ∧
    (s.mh.type = none → s.bhCsid.toNat < 65600 → s.cst.read s.bhCsid.toNat = some y →
      exec .resolveInherit s = .next { s with resType := y, ckState := .update }) ∧
    (s.mh.type = none → s.bhCsid.toNat < 65600 → s.cst.read s.bhCsid.toNat = none →
      exec .resolveInherit s = .next (s.raise .protocolError .resolveInherit))

/-- R188, R222, R224, R225: `RESOLVE.INHERIT` on an invalid entry raises ProtocolError: the record is
written with the id, and nothing else changes; no type is made up. That `fault.orderly` is kept is
log 26, and that the other registers keep their content until the release log 7. -/
def Obligations.ResolveMissRaisesProtocolError : Prop :=
  ∀ (s : State), s.fault.code = .noFault → s.ckState = .resolve → s.mh.type = none →
    s.bhCsid.toNat < 65600 → s.cst.read s.bhCsid.toNat = none →
    exec .resolveInherit s = .next
      { s with
        fault :=
          { code := .protocolError
            hs := s.hsState
            ck := .resolve
            op := .resolveInherit
            csid := s.bhCsid
            orderly := s.fault.orderly } }

/-- R189, R53: `UPDATE` makes the chunk's entry valid with the resolved type, changes no other entry and
nothing else but `ck_state`; the register file stays canonical. The register file as a canonical list of its valid entries is the model's reading (log 10). -/
def Obligations.UpdateWritesOneEntry : Prop :=
  ∀ (s : State), s.fault.code = .noFault → s.ckState = .update → s.bhCsid.toNat < 65600 →
    ∃ m : Memory, exec .update s = .next { s with cst := m, ckState := .dispatch } ∧
      m.read s.bhCsid.toNat = some s.resType ∧
      (∀ i, i ≠ s.bhCsid.toNat → m.read i = s.cst.read i) ∧
      (s.cst.wf = true → m.wf = true)

/-- R201, R202: `DISPATCH` gives out one record with the resolved type, the payload and the decoded chunk,
for a type in `KNOWN_TYPES`; `DROP` gives one event for any other type and goes to the next chunk. That
the current-chunk registers keep their content at `DROP` is the model's (log 25). -/
def Obligations.DispatchDeliversOrDrops : Prop :=
  ∀ (s : State), s.fault.code = .noFault → s.ckState = .dispatch →
    (s.resType ∈ s.knownTypes →
      exec .dispatch s = .next
        { s with
          events := s.events ++
            [.deliver ⟨s.resType, s.payload, .htx, ⟨s.bhFmt, s.bhForm, s.bhCsid, s.mh⟩⟩]
          ckState := .handler }) ∧
    (s.resType ∉ s.knownTypes →
      exec .drop s = .next { s with events := s.events ++ [.drop s.resType], ckState := .bh0 })

/-- R203: `HTX.WRITE` appends the host's bytes to TX as given; the empty write does nothing (R52). That the
empty write leaves no event in the record is the model's choice (log 23). -/
def Obligations.HtxWriteAppendsTheHostsBytes : Prop :=
  ∀ (s : State) (bytes : List Byte), s.fault.code = .noFault → s.ckState = .handler →
    (bytes ≠ [] → s.txOk = true → s.txReady = true →
      exec (.htxWrite bytes) s = .next
        { s with
          txPending := s.txPending ++ bytes
          txPos := s.txPos + bytes.length
          events := s.events ++ [.tx bytes] }) ∧
    (bytes = [] → exec (.htxWrite bytes) s = .next s)

/-- R204, R65, R206: `HTX.FLUSH` leaves nothing unflushed and marks a flush point; `RETURN` ends the
handler window and changes nothing else. That the current-chunk registers keep their content at
`RETURN` is the model's (log 25), and that a flush with nothing unflushed marks a flush point too is the
model's choice (log 30). -/
def Obligations.HtxFlushAndReturn : Prop :=
  ∀ (s : State), s.fault.code = .noFault → s.ckState = .handler →
    (s.txFlushOk = true → s.txFlushReady = true →
      exec .htxFlush s = .next { s with txPending := [], events := s.events ++ [.flush] }) ∧
    exec .ret s = .next { s with ckState := .bh0 }

/-- R208, R223, V9, R7: a host write or flush outside the handler window is refused, and so is every
call, an encode operation's too, that arrives over the HTX port there: nothing of the block changes,
`fault` is not set and the call is not queued. While a handler runs the port takes it. The model's
choice: that a `RETURN` outside the window is refused too, of which no rule speaks (log 5), that a
refused call is answered in the event record (log 5), that R7's port is a way of its own for the
encode operations and carries a `RETURN` as well (log 18), and that the port judges a call as it arrives,
whatever stands in the queue before it (log 28). -/
def Obligations.HostCallsOutsideTheWindowAreRefused : Prop :=
  ∀ (s : State) (bytes : List Byte) (call : HostCall) (rest : List EnvEvent),
    ((s.fault.code ≠ .noFault ∨ s.ckState ≠ .handler) →
      exec (.htxWrite bytes) s = .next { s with events := s.events ++ [.refusedCall .htxWrite] } ∧
      exec .htxFlush s = .next { s with events := s.events ++ [.refusedCall .htxFlush] } ∧
      exec .ret s = .next { s with events := s.events ++ [.refusedCall .ret] } ∧
      (s.env = .htx call :: rest → (s.fault.code = .noFault ∨ s.released = true) →
        step s = .next
          { s with env := rest, events := s.events ++ [.refusedCall call.toInstr.op] })) ∧
    (s.fault.code = .noFault → s.ckState = .handler → s.env = .htx call :: rest →
      step s = .next { s with env := rest, hostQ := s.hostQ ++ [call] })

/-! ## Waiting and exceptions -/

/-- R51 (d), R52, R238, R258: an operation that waits, for bytes or for the transport, changes nothing
at all. A wait as a step of its own is log 3, that `HS.S1` and `HS.S2` show nothing while they wait at
their flush log 27, and that a flush with nothing unflushed waits as any other is the model's choice
(log 30). -/
def Obligations.WaitingChangesNothing : Prop :=
  ∀ (i : Instr) (s : State), blocked i s = true → exec i s = .next s

/-- R51 (c), R221, R224, R225: an enabled operation that needs more bytes than RX will ever have raises
IoError: the record is written, with `orderly` exactly for `BH.B0` on a closed and empty RX, and
nothing else changes; no byte is consumed. That `fault.csid` is kept is log 26. -/
def Obligations.ShortReadRaisesIoError : Prop :=
  ∀ (i : Instr) (s : State), enabled i s = true → s.rxAvail.length < readLen i s →
    s.rxEnd ≠ .stillOpen →
    exec i s = .next
      { s with
        fault :=
          { code := .ioError
            hs := s.hsState
            ck := s.ckState
            op := i.op
            csid := s.fault.csid
            orderly := decide (i = .bhB0 ∧ s.rxEnd = .closed ∧ s.rxAvail = []) } }

/-- R52, R112, R113, R115, R203, R221: a write the transport fails raises IoError; some part from the
front of the bytes may have reached the peer; the buffer a handshake operation set before it wrote
stays set (R225, log 27), and nothing else changes. The model's choice: it fails at once, whatever the
transport makes wait (log 19), `tx_pos` and the unflushed bytes leave the part out (log 13), the record
keeps of a failed host write that part alone (log 23), and `fault.csid` is kept (log 26). -/
def Obligations.FailedWriteRaisesIoError : Prop :=
  ∀ (s : State) (t : Word32) (r : RandomBlock) (bytes : List Byte),
    s.fault.code = .noFault → s.txOk = false →
    (s.hsState = .sendS0 → ∃ part, part <+: [3] ∧ exec .hsS0 s = .next
      { s with
        s0 := [3]
        events := s.events ++ [.txPart part]
        fault := ⟨.ioError, .sendS0, s.ckState, .hsS0, s.fault.csid, false⟩ }) ∧
    (s.hsState = .sendS1 → ∃ part, part <+: encodeUnit (.s1 t r) ∧ exec (.hsS1 t r) s = .next
      { s with
        s1 := encodeUnit (.s1 t r)
        events := s.events ++ [.txPart part]
        fault := ⟨.ioError, .sendS1, s.ckState, .hsS1, s.fault.csid, false⟩ }) ∧
    (s.hsState = .sendS2 → ∃ part, part <+: s.s2Bytes ∧ exec .hsS2 s = .next
      { s with
        s2 := s.s2Bytes
        events := s.events ++ [.txPart part]
        fault := ⟨.ioError, .sendS2, s.ckState, .hsS2, s.fault.csid, false⟩ }) ∧
    (s.ckState = .handler → bytes ≠ [] → ∃ part, part <+: bytes ∧ exec (.htxWrite bytes) s = .next
      { s with
        events := s.events ++ [.txPart part]
        fault := ⟨.ioError, s.hsState, .handler, .htxWrite, s.fault.csid, false⟩ })

/-- R65, R113, R115, R204, R227: a flush that fails raises IoError; in `HS.S1` and `HS.S2` the write
before it has been made (log 27). The model's choice: it fails at once, whatever the transport makes
wait (log 19), also with nothing unflushed (log 30), and `fault.csid` is kept (log 26). -/
def Obligations.FailedFlushRaisesIoError : Prop :=
  ∀ (s : State) (t : Word32) (r : RandomBlock), s.fault.code = .noFault → s.txFlushOk = false →
    (s.hsState = .sendS1 → s.txOk = true → s.txReady = true → exec (.hsS1 t r) s = .next
      { s with
        s1 := encodeUnit (.s1 t r)
        txPending := s.txPending ++ encodeUnit (.s1 t r)
        txPos := s.txPos + 1536
        events := s.events ++ [.tx (encodeUnit (.s1 t r))]
        fault := ⟨.ioError, .sendS1, s.ckState, .hsS1, s.fault.csid, false⟩ }) ∧
    (s.hsState = .sendS2 → s.txOk = true → s.txReady = true → exec .hsS2 s = .next
      { s with
        s2 := s.s2Bytes
        txPending := s.txPending ++ s.s2Bytes
        txPos := s.txPos + s.s2Bytes.length
        events := s.events ++ [.tx s.s2Bytes]
        fault := ⟨.ioError, .sendS2, s.ckState, .hsS2, s.fault.csid, false⟩ }) ∧
    (s.ckState = .handler → exec .htxFlush s = .next
      { s with fault := ⟨.ioError, s.hsState, .handler, .htxFlush, s.fault.csid, false⟩ })

/-- R237, R118, R225: where `IO_DEADLINE` is none an expiring deadline does nothing; where it is set it
turns a wait into IoError with `orderly = 0`. A wait at a read leaves everything else; a wait at a write
is a failed write, its buffer set and some part from its front sent; a wait at a flush leaves the buffer
set and the write standing. The event that stands for it, and that a waiting host call is then used up,
is log 16; that `tx_pos` and the unflushed bytes leave a sent part out log 13; that the record keeps of a
host write so ended its sent part alone log 23; that a flush with nothing unflushed waits too log 30; that `fault.csid` is kept log 26. -/
def Obligations.DeadlineEndsAWait : Prop :=
  ∀ (s : State) (i : Instr) (rest : List EnvEvent), s.fault.code = .noFault →
    s.env = .deadline :: rest → s.nextOp = .ok i → blocked i s = true →
    (s.ioDeadline = none → step s = .next { s with env := rest }) ∧
    (s.ioDeadline.isSome = true →
      (s.rxWaits (readLen i s) = true → step s = .next
        { s with
          env := rest
          hostQ := s.hostQ.tail
          fault := ⟨.ioError, s.hsState, s.ckState, i.op, s.fault.csid, false⟩ }) ∧
      (s.txWaits (writeBytes i s) = true → ∃ part, part <+: writeBytes i s ∧ step s = .next
        { s.withBuffer i with
          env := rest
          hostQ := s.hostQ.tail
          events := s.events ++ [.txPart part]
          fault := ⟨.ioError, s.hsState, s.ckState, i.op, s.fault.csid, false⟩ }) ∧
      (s.rxWaits (readLen i s) = false → s.txWaits (writeBytes i s) = false → step s = .next
        { s.withBuffer i with
          env := rest
          hostQ := s.hostQ.tail
          txPending := s.txPending ++ writeBytes i s
          txPos := s.txPos + (writeBytes i s).length
          events := s.events ++ (if writeBytes i s = [] then [] else [.tx (writeBytes i s)])
          fault := ⟨.ioError, s.hsState, s.ckState, i.op, s.fault.csid, false⟩ }))

/-- R23, R225: after a fault no operation of the block is enabled. How the model says so is log 4. -/
def Obligations.NothingIsEnabledAfterAFault : Prop :=
  ∀ (i : Instr) (s : State), s.fault.code ≠ .noFault → i.own = true →
    enabled i s = false ∧ exec i s = .refused (.notEnabled i.op)

/-- R36, R226, R267: the first step after a fault releases the connection's registers, keeping the fault
register, the ghost counters, the transport, the parameters and the record; a turn after that finds the
run ended. The two phases are log 6 and log 7. -/
def Obligations.EndedConnectionIsReleased : Prop :=
  ∀ (s : State), s.fault.code ≠ .noFault →
    (s.released = false → ∃ t, step s = .next t ∧ t.released = true ∧ t.fault = s.fault ∧
      t.rxPos = s.rxPos ∧ t.txPos = s.txPos ∧ t.rxAvail = s.rxAvail ∧ t.rxEnd = s.rxEnd ∧
      t.txPending = s.txPending ∧ t.txOk = s.txOk ∧ t.knownTypes = s.knownTypes ∧
      t.ioDeadline = s.ioDeadline ∧ t.env = s.env ∧ t.hostQ = s.hostQ ∧ t.events = s.events) ∧
    (s.released = true → s.env = [] → s.hostQ = [] →
      (s.fault.code = .ioError → step s = .fault .ioError) ∧
      (s.fault.code = .protocolError → step s = .fault .protocolError))

/-! ## Rules about the whole machine -/

/-- R251, R35, R28: the invariant, the handshake positions and the TX record hold at reset and in every
new connection, with any parameters and any bytes already sent. The model's choice: that the buffers have
their sizes before anything is written (log 9), and that the inbound ones are of 3073 bytes (log 29). -/
def Obligations.ResetMeetsTheInvariant : Prop :=
  ∀ (s : State) (rx : List Byte),
    (State.reset.Inv ∧ State.reset.handshakePositions ∧ State.reset.txRecord) ∧
    ((s.newConnection rx).Inv ∧ (s.newConnection rx).handshakePositions ∧
      (s.newConnection rx).txRecord)

/-- R22, R25 to R28, R53, R130, R135, R173, R201, R226, R257: every step keeps the invariant of
Safety.lean. The model's choice: inbound buffers of 3073 bytes (log 29), which keep their sizes when
discarded (log 8) or released (log 7); the field `released`, set only on an ended connection, and a
register file canonical and a payload within its bound after the release (log 7); the register file as
a canonical list (log 10). -/
def Obligations.StepKeepsTheInvariant : Prop :=
  ∀ s t : State, s.Inv → step s = .next t → t.Inv

/-- R63, R121: every step keeps the byte positions of the handshake. -/
def Obligations.StepKeepsHandshakePositions : Prop :=
  ∀ s t : State, s.Inv → s.handshakePositions → step s = .next t → t.handshakePositions

/-- R30, R31, R52, R65: every step keeps `tx_pos` the length of the TX record and the pending bytes those
after its last flush point. That both leave out the part of a failed write is log 13. -/
def Obligations.StepKeepsTheTxRecord : Prop :=
  ∀ s t : State, s.txRecord → step s = .next t → t.txRecord

/-- R21, R22, R38: on a live connection each step keeps `hs_state` and `ck_state` or advances one of them
to a successor; `hs_state` never moves backward and never skips a value. -/
def Obligations.ControlStateAdvancesInOrder : Prop :=
  ∀ s t : State, s.fault.code = .noFault → s.noReset → step s = .next t →
    (t.hsState = s.hsState ∧ (t.ckState = s.ckState ∨ t.ckState ∈ s.ckState.successors)) ∨
    (t.hsState.number = s.hsState.number + 1 ∧ t.ckState = s.ckState)

/-- R231: HANDSHAKE is left only into SESSION or FAILED, SESSION only into FAILED, FAILED not at all,
where the next act is no reset. That a reset may come in HANDSHAKE or SESSION is the model's choice
(log 31). -/
def Obligations.ModesChangeOnlyForward : Prop :=
  ∀ s t : State, s.noReset → step s = .next t →
    t.mode = s.mode ∨ (s.mode = .handshake ∧ (t.mode = .session ∨ t.mode = .failed)) ∨
      (s.mode = .session ∧ t.mode = .failed)

/-- R23, R226: once `fault.code` is non-zero no step changes the fault register, but by reset. -/
def Obligations.FailedModeIsLeftOnlyByReset : Prop :=
  ∀ s t : State, s.fault.code ≠ .noFault → step s = .next t → t.fault ≠ s.fault →
    ∃ rx rest, s.env = .rst rx :: rest ∧ t.fault.code = .noFault

/-- R27, R190: on a live connection an entry changes only by an `UPDATE` whose `bh_csid` is its index, and
then it holds the resolved type; no entry ever becomes invalid. -/
def Obligations.EntriesChangeOnlyByTheirOwnUpdate : Prop :=
  ∀ (s t : State) (n : Nat), s.fault.code = .noFault → s.noReset → step s = .next t →
    t.cst.read n = s.cst.read n ∨
      (s.ckState = .update ∧ s.bhCsid.toNat = n ∧ t.cst.read n = some s.resType)

/-- R38, R51, R61: an operation either consumes nothing or exactly the bytes it reads, from the front of
RX. -/
def Obligations.ExecConsumesExactlyItsBytes : Prop :=
  ∀ (i : Instr) (s t : State), exec i s = .next t →
    (t.rxPos = s.rxPos ∧ t.rxAvail = s.rxAvail) ∨
    (readLen i s ≤ s.rxAvail.length ∧ t.rxPos = s.rxPos + readLen i s ∧
      t.rxAvail = s.rxAvail.drop (readLen i s))

/-- R120, R259, R253: on a live connection TX is touched only by the sending states of the handshake and
inside a handler window: no other step writes bytes, lets a part of a failed write through or flushes. -/
def Obligations.OnlyItsWritersExtendTx : Prop :=
  ∀ s t : State, s.fault.code = .noFault → s.noReset → step s = .next t →
    (t.txPos ≠ s.txPos ∨ t.txPending ≠ s.txPending ∨ txActs t.events ≠ txActs s.events) →
    (s.ckState = .idle ∧ (s.hsState = .sendS0 ∨ s.hsState = .sendS1 ∨ s.hsState = .sendS2)) ∨
    s.ckState = .handler

/-- R66 (e), R206: in a handler window no byte of RX is consumed and no chunk register changes. At the
`RETURN` that ends it the registers are kept by log 25, and at a failed write or flush until the release
by log 7. -/
def Obligations.HandlerWindowReadsNothing : Prop :=
  ∀ s t : State, s.fault.code = .noFault → s.ckState = .handler → s.noReset → step s = .next t →
    t.rxPos = s.rxPos ∧ t.bhB0 = s.bhB0 ∧ t.chunk = s.chunk ∧ t.payload = s.payload ∧ t.resType = s.resType ∧
      t.cst = s.cst

/-- R28, R29, R111: `c0_version` and the buffers `c0`, `c2`, `s0`, `s1`, `s2` are never read: other
contents make no step differ in anything but those same registers. -/
def Obligations.VersionAndSentBuffersAreNeverRead : Prop :=
  ∀ (s : State) (v : Byte) (a0 a2 b0 b1 b2 : List Byte),
    ∃ (v' : Byte) (a0' a2' b0' b1' b2' : List Byte),
      step { s with c0Version := v, c0 := a0, c2 := a2, s0 := b0, s1 := b1, s2 := b2 } =
        mapNext (fun t => { t with
          c0Version := v', c0 := a0', c2 := a2', s0 := b0', s1 := b1', s2 := b2' }) (step s)

/-- R30, D34: no operation's behaviour depends on the ghost counters. -/
def Obligations.GhostCountersAreNeverRead : Prop :=
  ∀ (s : State) (a b : Nat), ∃ a' b' : Nat,
    step { s with rxPos := a, txPos := b } =
      mapNext (fun t => { t with rxPos := a', txPos := b' }) (step s)

/-! ## Whole exchanges -/

/-- R121, and the source's own handshake property: seven steps from `AwaitC0` with C0, C1 and C2 on RX
consume 3073 bytes and write 3073: S0 = 3, S1 = some time, zero, some block, S2 = C1's time, zero, C1's
block, with flush points after S1 and after S2, and open the chunk path; C0, C1's second field and C2
are not checked. -/
def Obligations.HandshakeAnswersTheClient : Prop :=
  ∀ (s : State) (v : Byte) (time zero : Word32) (random : RandomBlock) (c2 rest : List Byte),
    s.fault.code = .noFault → s.hsState = .awaitC0 → s.ckState = .idle →
    s.env = [] → s.hostQ = [] → s.txOk = true → s.txFlushOk = true → s.txReady = true →
    s.txFlushReady = true →
    c2.length = 1536 → s.rxAvail = handshakeBytes v time zero random c2 ++ rest →
    ∃ (t : State) (now : Word32) (draw : RandomBlock), Sys2Proof.core.run 7 s = .next t ∧
      t.hsState = .done ∧ t.ckState = .bh0 ∧ t.fault = s.fault ∧ t.c0Version = v ∧
      t.rxAvail = rest ∧ t.rxPos = s.rxPos + 3073 ∧ t.txPos = s.txPos + 3073 ∧
      t.events = s.events ++
        [.tx [3], .tx (toBe32 now.toNat ++ [0, 0, 0, 0] ++ draw.toList), .flush,
          .tx (toBe32 time.toNat ++ [0, 0, 0, 0] ++ random.toList), .flush]

/-- R96, R177, R186, R189, R201, R202: a chunk that carries its own type (`fmt` 0 or 1) is read whole, in
the smallest spelling of its id; its entry is written; and it is delivered with exactly its fields, or
dropped where the type is not known. -/
def Obligations.TypedChunkIsDeliveredOrDropped : Prop :=
  ∀ (s : State) (fmt csid : Nat) (h : MsgHeader) (len : Word24) (type : Byte)
    (payload bytes rest : List Byte),
    s.fault.code = .noFault → s.ckState = .bh0 → s.env = [] → s.hostQ = [] →
    chunkBytes fmt csid h payload = some bytes → h.type = some type → h.len = some len →
    payload.length = len.toNat → s.rxAvail = bytes ++ rest →
    ∃ t, Sys2Proof.core.run 7 s = .next t ∧ t.fault = s.fault ∧ t.rxAvail = rest ∧
      t.rxPos = s.rxPos + bytes.length ∧ t.txPos = s.txPos ∧
      t.cst.read csid = some type ∧ (∀ n, n ≠ csid → t.cst.read n = s.cst.read n) ∧
      (type ∈ s.knownTypes → t.ckState = .handler ∧ t.events = s.events ++
        [.deliver ⟨type, payload, .htx, ⟨BitVec.ofNat 2 fmt,
          (if csid ≤ 63 then .one else if csid ≤ 319 then .two else .three),
          BitVec.ofNat 17 csid, h⟩⟩]) ∧
      (type ∉ s.knownTypes → t.ckState = .bh0 ∧ t.events = s.events ++ [.drop type])

/-- R96, R177, R187 to R189, R222, R227, and the source's own inheritance properties: a chunk without a
type (`fmt` 2 or 3) on an id whose entry is valid takes the entry's type, has an empty payload, and
leaves every entry as it was; on an id with no entry it ends the connection with ProtocolError after its
whole header has been consumed, nothing being delivered or dropped and the register file unchanged.
That `fault.orderly` is kept is log 26. -/
def Obligations.UntypedChunkInheritsOrFails : Prop :=
  ∀ (s : State) (fmt csid : Nat) (h : MsgHeader) (bytes rest : List Byte),
    s.fault.code = .noFault → s.ckState = .bh0 → s.env = [] → s.hostQ = [] →
    chunkBytes fmt csid h [] = some bytes → h.type = none → s.rxAvail = bytes ++ rest →
    (∀ type, s.cst.read csid = some type →
      ∃ t, Sys2Proof.core.run 7 s = .next t ∧ t.fault = s.fault ∧ t.rxAvail = rest ∧
        t.rxPos = s.rxPos + bytes.length ∧ (∀ n, t.cst.read n = s.cst.read n) ∧
        (type ∈ s.knownTypes → t.ckState = .handler ∧ t.events = s.events ++
          [.deliver ⟨type, [], .htx, ⟨BitVec.ofNat 2 fmt,
            (if csid ≤ 63 then .one else if csid ≤ 319 then .two else .three),
            BitVec.ofNat 17 csid, h⟩⟩]) ∧
        (type ∉ s.knownTypes → t.ckState = .bh0 ∧ t.events = s.events ++ [.drop type])) ∧
    (s.cst.read csid = none →
      ∃ t, Sys2Proof.core.run 5 s = .next t ∧
        t.fault = ⟨.protocolError, s.hsState, .resolve, .resolveInherit, BitVec.ofNat 17 csid,
          s.fault.orderly⟩ ∧
        t.rxAvail = rest ∧ t.rxPos = s.rxPos + bytes.length ∧ t.cst = s.cst ∧
        t.events = s.events)

/-! ## STATUS -/

/-- R21, R22, R34, R220: STATUS shows `hs_state` as 0 to 6, `ck_state` as 0 to 8 and `fault.code` as 0 to
2, the state recorded with a fault by the same numbers, the operation by its mnemonic, and the other
fields as they are; states that show the same STATUS agree in everything it reports. -/
def Obligations.StatusShowsTheCodesOfTheSpec : Prop :=
  ∀ s t : State,
    s.status.hsState = (match s.hsState with
      | .awaitC0 => 0
      | .sendS0 => 1
      | .sendS1 => 2
      | .awaitC1 => 3
      | .sendS2 => 4
      | .awaitC2 => 5
      | .done => 6) ∧
    s.status.ckState = (match s.ckState with
      | .idle => 0
      | .bh0 => 1
      | .bhx => 2
      | .mh => 3
      | .payload => 4
      | .resolve => 5
      | .update => 6
      | .dispatch => 7
      | .handler => 8) ∧
    s.status.faultCode = (match s.fault.code with
      | .noFault => 0
      | .ioError => 1
      | .protocolError => 2) ∧
    s.status.faultHs = (match s.fault.hs with
      | .awaitC0 => 0
      | .sendS0 => 1
      | .sendS1 => 2
      | .awaitC1 => 3
      | .sendS2 => 4
      | .awaitC2 => 5
      | .done => 6) ∧
    s.status.faultCk = (match s.fault.ck with
      | .idle => 0
      | .bh0 => 1
      | .bhx => 2
      | .mh => 3
      | .payload => 4
      | .resolve => 5
      | .update => 6
      | .dispatch => 7
      | .handler => 8) ∧
    s.status.faultOp = s.fault.op.mnemonic ∧
    s.status.faultCsid = s.fault.csid ∧
    s.status.faultOrderly = s.fault.orderly ∧
    s.status.c0Version = s.c0Version ∧
    (s.status = t.status →
      s.hsState = t.hsState ∧ s.ckState = t.ckState ∧ s.fault = t.fault ∧
        s.c0Version = t.c0Version)
end

