-- ==== Sys2Proof/Laws/State.lean ====
section
/-! SUPPORT. One lemma per field and named update of the state, each true by definition. -/

namespace Sys2Proof.Machine

/-! ### `log` -/

@[simp] theorem State.log_hsState (s : State) (e : Event) : (s.log e).hsState = s.hsState := rfl
@[simp] theorem State.log_ckState (s : State) (e : Event) : (s.log e).ckState = s.ckState := rfl
@[simp] theorem State.log_fault (s : State) (e : Event) : (s.log e).fault = s.fault := rfl
@[simp] theorem State.log_bhB0 (s : State) (e : Event) : (s.log e).bhB0 = s.bhB0 := rfl
@[simp] theorem State.log_bhFmt (s : State) (e : Event) : (s.log e).bhFmt = s.bhFmt := rfl
@[simp] theorem State.log_bhForm (s : State) (e : Event) : (s.log e).bhForm = s.bhForm := rfl
@[simp] theorem State.log_bhCsid (s : State) (e : Event) : (s.log e).bhCsid = s.bhCsid := rfl
@[simp] theorem State.log_mh (s : State) (e : Event) : (s.log e).mh = s.mh := rfl
@[simp] theorem State.log_payload (s : State) (e : Event) : (s.log e).payload = s.payload := rfl
@[simp] theorem State.log_resType (s : State) (e : Event) : (s.log e).resType = s.resType := rfl
@[simp] theorem State.log_cst (s : State) (e : Event) : (s.log e).cst = s.cst := rfl
@[simp] theorem State.log_c0 (s : State) (e : Event) : (s.log e).c0 = s.c0 := rfl
@[simp] theorem State.log_c1 (s : State) (e : Event) : (s.log e).c1 = s.c1 := rfl
@[simp] theorem State.log_c2 (s : State) (e : Event) : (s.log e).c2 = s.c2 := rfl
@[simp] theorem State.log_s0 (s : State) (e : Event) : (s.log e).s0 = s.s0 := rfl
@[simp] theorem State.log_s1 (s : State) (e : Event) : (s.log e).s1 = s.s1 := rfl
@[simp] theorem State.log_s2 (s : State) (e : Event) : (s.log e).s2 = s.s2 := rfl
@[simp] theorem State.log_c0Version (s : State) (e : Event) : (s.log e).c0Version = s.c0Version := rfl
@[simp] theorem State.log_rxPos (s : State) (e : Event) : (s.log e).rxPos = s.rxPos := rfl
@[simp] theorem State.log_txPos (s : State) (e : Event) : (s.log e).txPos = s.txPos := rfl
@[simp] theorem State.log_rxAvail (s : State) (e : Event) : (s.log e).rxAvail = s.rxAvail := rfl
@[simp] theorem State.log_rxEnd (s : State) (e : Event) : (s.log e).rxEnd = s.rxEnd := rfl
@[simp] theorem State.log_txPending (s : State) (e : Event) : (s.log e).txPending = s.txPending := rfl
@[simp] theorem State.log_txOk (s : State) (e : Event) : (s.log e).txOk = s.txOk := rfl
@[simp] theorem State.log_txFlushOk (s : State) (e : Event) : (s.log e).txFlushOk = s.txFlushOk := rfl
@[simp] theorem State.log_txReady (s : State) (e : Event) : (s.log e).txReady = s.txReady := rfl
@[simp] theorem State.log_txFlushReady (s : State) (e : Event) : (s.log e).txFlushReady = s.txFlushReady := rfl
@[simp] theorem State.log_knownTypes (s : State) (e : Event) : (s.log e).knownTypes = s.knownTypes := rfl
@[simp] theorem State.log_ioDeadline (s : State) (e : Event) : (s.log e).ioDeadline = s.ioDeadline := rfl
@[simp] theorem State.log_hostQ (s : State) (e : Event) : (s.log e).hostQ = s.hostQ := rfl
@[simp] theorem State.log_env (s : State) (e : Event) : (s.log e).env = s.env := rfl
@[simp] theorem State.log_events (s : State) (e : Event) : (s.log e).events = s.events ++ [e] := rfl
@[simp] theorem State.log_conn (s : State) (e : Event) : (s.log e).conn = s.conn := rfl
@[simp] theorem State.log_released (s : State) (e : Event) : (s.log e).released = s.released := rfl

/-! ### `raise` -/

@[simp] theorem State.raise_hsState (s : State) (c : FaultCode) (op : Op) : (s.raise c op).hsState = s.hsState := rfl
@[simp] theorem State.raise_ckState (s : State) (c : FaultCode) (op : Op) : (s.raise c op).ckState = s.ckState := rfl
@[simp] theorem State.raise_bhB0 (s : State) (c : FaultCode) (op : Op) : (s.raise c op).bhB0 = s.bhB0 := rfl
@[simp] theorem State.raise_bhFmt (s : State) (c : FaultCode) (op : Op) : (s.raise c op).bhFmt = s.bhFmt := rfl
@[simp] theorem State.raise_bhForm (s : State) (c : FaultCode) (op : Op) : (s.raise c op).bhForm = s.bhForm := rfl
@[simp] theorem State.raise_bhCsid (s : State) (c : FaultCode) (op : Op) : (s.raise c op).bhCsid = s.bhCsid := rfl
@[simp] theorem State.raise_mh (s : State) (c : FaultCode) (op : Op) : (s.raise c op).mh = s.mh := rfl
@[simp] theorem State.raise_payload (s : State) (c : FaultCode) (op : Op) : (s.raise c op).payload = s.payload := rfl
@[simp] theorem State.raise_resType (s : State) (c : FaultCode) (op : Op) : (s.raise c op).resType = s.resType := rfl
@[simp] theorem State.raise_cst (s : State) (c : FaultCode) (op : Op) : (s.raise c op).cst = s.cst := rfl
@[simp] theorem State.raise_c0 (s : State) (c : FaultCode) (op : Op) : (s.raise c op).c0 = s.c0 := rfl
@[simp] theorem State.raise_c1 (s : State) (c : FaultCode) (op : Op) : (s.raise c op).c1 = s.c1 := rfl
@[simp] theorem State.raise_c2 (s : State) (c : FaultCode) (op : Op) : (s.raise c op).c2 = s.c2 := rfl
@[simp] theorem State.raise_s0 (s : State) (c : FaultCode) (op : Op) : (s.raise c op).s0 = s.s0 := rfl
@[simp] theorem State.raise_s1 (s : State) (c : FaultCode) (op : Op) : (s.raise c op).s1 = s.s1 := rfl
@[simp] theorem State.raise_s2 (s : State) (c : FaultCode) (op : Op) : (s.raise c op).s2 = s.s2 := rfl
@[simp] theorem State.raise_c0Version (s : State) (c : FaultCode) (op : Op) : (s.raise c op).c0Version = s.c0Version := rfl
@[simp] theorem State.raise_rxPos (s : State) (c : FaultCode) (op : Op) : (s.raise c op).rxPos = s.rxPos := rfl
@[simp] theorem State.raise_txPos (s : State) (c : FaultCode) (op : Op) : (s.raise c op).txPos = s.txPos := rfl
@[simp] theorem State.raise_rxAvail (s : State) (c : FaultCode) (op : Op) : (s.raise c op).rxAvail = s.rxAvail := rfl
@[simp] theorem State.raise_rxEnd (s : State) (c : FaultCode) (op : Op) : (s.raise c op).rxEnd = s.rxEnd := rfl
@[simp] theorem State.raise_txPending (s : State) (c : FaultCode) (op : Op) : (s.raise c op).txPending = s.txPending := rfl
@[simp] theorem State.raise_txOk (s : State) (c : FaultCode) (op : Op) : (s.raise c op).txOk = s.txOk := rfl
@[simp] theorem State.raise_txFlushOk (s : State) (c : FaultCode) (op : Op) : (s.raise c op).txFlushOk = s.txFlushOk := rfl
@[simp] theorem State.raise_txReady (s : State) (c : FaultCode) (op : Op) : (s.raise c op).txReady = s.txReady := rfl
@[simp] theorem State.raise_txFlushReady (s : State) (c : FaultCode) (op : Op) : (s.raise c op).txFlushReady = s.txFlushReady := rfl
@[simp] theorem State.raise_knownTypes (s : State) (c : FaultCode) (op : Op) : (s.raise c op).knownTypes = s.knownTypes := rfl
@[simp] theorem State.raise_ioDeadline (s : State) (c : FaultCode) (op : Op) : (s.raise c op).ioDeadline = s.ioDeadline := rfl
@[simp] theorem State.raise_hostQ (s : State) (c : FaultCode) (op : Op) : (s.raise c op).hostQ = s.hostQ := rfl
@[simp] theorem State.raise_env (s : State) (c : FaultCode) (op : Op) : (s.raise c op).env = s.env := rfl
@[simp] theorem State.raise_events (s : State) (c : FaultCode) (op : Op) : (s.raise c op).events = s.events := rfl
@[simp] theorem State.raise_conn (s : State) (c : FaultCode) (op : Op) : (s.raise c op).conn = s.conn := rfl
@[simp] theorem State.raise_released (s : State) (c : FaultCode) (op : Op) : (s.raise c op).released = s.released := rfl

@[simp] theorem State.raise_code (s : State) (c : FaultCode) (op : Op) :
    (s.raise c op).fault.code = c := rfl

/-! ### `sendPart` -/

@[simp] theorem State.sendPart_hsState (s : State) (b : List Byte) : (s.sendPart b).hsState = s.hsState := rfl
@[simp] theorem State.sendPart_ckState (s : State) (b : List Byte) : (s.sendPart b).ckState = s.ckState := rfl
@[simp] theorem State.sendPart_fault (s : State) (b : List Byte) : (s.sendPart b).fault = s.fault := rfl
@[simp] theorem State.sendPart_bhB0 (s : State) (b : List Byte) : (s.sendPart b).bhB0 = s.bhB0 := rfl
@[simp] theorem State.sendPart_bhFmt (s : State) (b : List Byte) : (s.sendPart b).bhFmt = s.bhFmt := rfl
@[simp] theorem State.sendPart_bhForm (s : State) (b : List Byte) : (s.sendPart b).bhForm = s.bhForm := rfl
@[simp] theorem State.sendPart_bhCsid (s : State) (b : List Byte) : (s.sendPart b).bhCsid = s.bhCsid := rfl
@[simp] theorem State.sendPart_mh (s : State) (b : List Byte) : (s.sendPart b).mh = s.mh := rfl
@[simp] theorem State.sendPart_payload (s : State) (b : List Byte) : (s.sendPart b).payload = s.payload := rfl
@[simp] theorem State.sendPart_resType (s : State) (b : List Byte) : (s.sendPart b).resType = s.resType := rfl
@[simp] theorem State.sendPart_cst (s : State) (b : List Byte) : (s.sendPart b).cst = s.cst := rfl
@[simp] theorem State.sendPart_c0 (s : State) (b : List Byte) : (s.sendPart b).c0 = s.c0 := rfl
@[simp] theorem State.sendPart_c1 (s : State) (b : List Byte) : (s.sendPart b).c1 = s.c1 := rfl
@[simp] theorem State.sendPart_c2 (s : State) (b : List Byte) : (s.sendPart b).c2 = s.c2 := rfl
@[simp] theorem State.sendPart_s0 (s : State) (b : List Byte) : (s.sendPart b).s0 = s.s0 := rfl
@[simp] theorem State.sendPart_s1 (s : State) (b : List Byte) : (s.sendPart b).s1 = s.s1 := rfl
@[simp] theorem State.sendPart_s2 (s : State) (b : List Byte) : (s.sendPart b).s2 = s.s2 := rfl
@[simp] theorem State.sendPart_c0Version (s : State) (b : List Byte) : (s.sendPart b).c0Version = s.c0Version := rfl
@[simp] theorem State.sendPart_rxPos (s : State) (b : List Byte) : (s.sendPart b).rxPos = s.rxPos := rfl
@[simp] theorem State.sendPart_txPos (s : State) (b : List Byte) : (s.sendPart b).txPos = s.txPos := rfl
@[simp] theorem State.sendPart_rxAvail (s : State) (b : List Byte) : (s.sendPart b).rxAvail = s.rxAvail := rfl
@[simp] theorem State.sendPart_rxEnd (s : State) (b : List Byte) : (s.sendPart b).rxEnd = s.rxEnd := rfl
@[simp] theorem State.sendPart_txPending (s : State) (b : List Byte) : (s.sendPart b).txPending = s.txPending := rfl
@[simp] theorem State.sendPart_txOk (s : State) (b : List Byte) : (s.sendPart b).txOk = s.txOk := rfl
@[simp] theorem State.sendPart_txFlushOk (s : State) (b : List Byte) : (s.sendPart b).txFlushOk = s.txFlushOk := rfl
@[simp] theorem State.sendPart_txReady (s : State) (b : List Byte) : (s.sendPart b).txReady = s.txReady := rfl
@[simp] theorem State.sendPart_txFlushReady (s : State) (b : List Byte) : (s.sendPart b).txFlushReady = s.txFlushReady := rfl
@[simp] theorem State.sendPart_knownTypes (s : State) (b : List Byte) : (s.sendPart b).knownTypes = s.knownTypes := rfl
@[simp] theorem State.sendPart_ioDeadline (s : State) (b : List Byte) : (s.sendPart b).ioDeadline = s.ioDeadline := rfl
@[simp] theorem State.sendPart_hostQ (s : State) (b : List Byte) : (s.sendPart b).hostQ = s.hostQ := rfl
@[simp] theorem State.sendPart_env (s : State) (b : List Byte) : (s.sendPart b).env = s.env := rfl
@[simp] theorem State.sendPart_events (s : State) (b : List Byte) : (s.sendPart b).events = s.events ++
      [.txPart (b.take (Config.sentCount s.conn b % (b.length + 1)))] := rfl
@[simp] theorem State.sendPart_conn (s : State) (b : List Byte) : (s.sendPart b).conn = s.conn := rfl
@[simp] theorem State.sendPart_released (s : State) (b : List Byte) : (s.sendPart b).released = s.released := rfl

/-! ### `discardHandshake` -/

@[simp] theorem State.discardHandshake_hsState (s : State) : (s.discardHandshake).hsState = s.hsState := rfl
@[simp] theorem State.discardHandshake_ckState (s : State) : (s.discardHandshake).ckState = s.ckState := rfl
@[simp] theorem State.discardHandshake_fault (s : State) : (s.discardHandshake).fault = s.fault := rfl
@[simp] theorem State.discardHandshake_bhB0 (s : State) : (s.discardHandshake).bhB0 = s.bhB0 := rfl
@[simp] theorem State.discardHandshake_bhFmt (s : State) : (s.discardHandshake).bhFmt = s.bhFmt := rfl
@[simp] theorem State.discardHandshake_bhForm (s : State) : (s.discardHandshake).bhForm = s.bhForm := rfl
@[simp] theorem State.discardHandshake_bhCsid (s : State) : (s.discardHandshake).bhCsid = s.bhCsid := rfl
@[simp] theorem State.discardHandshake_mh (s : State) : (s.discardHandshake).mh = s.mh := rfl
@[simp] theorem State.discardHandshake_payload (s : State) : (s.discardHandshake).payload = s.payload := rfl
@[simp] theorem State.discardHandshake_resType (s : State) : (s.discardHandshake).resType = s.resType := rfl
@[simp] theorem State.discardHandshake_cst (s : State) : (s.discardHandshake).cst = s.cst := rfl
@[simp] theorem State.discardHandshake_c0Version (s : State) : (s.discardHandshake).c0Version = s.c0Version := rfl
@[simp] theorem State.discardHandshake_rxPos (s : State) : (s.discardHandshake).rxPos = s.rxPos := rfl
@[simp] theorem State.discardHandshake_txPos (s : State) : (s.discardHandshake).txPos = s.txPos := rfl
@[simp] theorem State.discardHandshake_rxAvail (s : State) : (s.discardHandshake).rxAvail = s.rxAvail := rfl
@[simp] theorem State.discardHandshake_rxEnd (s : State) : (s.discardHandshake).rxEnd = s.rxEnd := rfl
@[simp] theorem State.discardHandshake_txPending (s : State) : (s.discardHandshake).txPending = s.txPending := rfl
@[simp] theorem State.discardHandshake_txOk (s : State) : (s.discardHandshake).txOk = s.txOk := rfl
@[simp] theorem State.discardHandshake_txFlushOk (s : State) : (s.discardHandshake).txFlushOk = s.txFlushOk := rfl
@[simp] theorem State.discardHandshake_txReady (s : State) : (s.discardHandshake).txReady = s.txReady := rfl
@[simp] theorem State.discardHandshake_txFlushReady (s : State) : (s.discardHandshake).txFlushReady = s.txFlushReady := rfl
@[simp] theorem State.discardHandshake_knownTypes (s : State) : (s.discardHandshake).knownTypes = s.knownTypes := rfl
@[simp] theorem State.discardHandshake_ioDeadline (s : State) : (s.discardHandshake).ioDeadline = s.ioDeadline := rfl
@[simp] theorem State.discardHandshake_hostQ (s : State) : (s.discardHandshake).hostQ = s.hostQ := rfl
@[simp] theorem State.discardHandshake_env (s : State) : (s.discardHandshake).env = s.env := rfl
@[simp] theorem State.discardHandshake_events (s : State) : (s.discardHandshake).events = s.events := rfl
@[simp] theorem State.discardHandshake_conn (s : State) : (s.discardHandshake).conn = s.conn := rfl
@[simp] theorem State.discardHandshake_released (s : State) : (s.discardHandshake).released = s.released := rfl

/-! ### `release` -/

@[simp] theorem State.release_fault (s : State) : (s.release).fault = s.fault := rfl
@[simp] theorem State.release_rxPos (s : State) : (s.release).rxPos = s.rxPos := rfl
@[simp] theorem State.release_txPos (s : State) : (s.release).txPos = s.txPos := rfl
@[simp] theorem State.release_rxAvail (s : State) : (s.release).rxAvail = s.rxAvail := rfl
@[simp] theorem State.release_rxEnd (s : State) : (s.release).rxEnd = s.rxEnd := rfl
@[simp] theorem State.release_txPending (s : State) : (s.release).txPending = s.txPending := rfl
@[simp] theorem State.release_txOk (s : State) : (s.release).txOk = s.txOk := rfl
@[simp] theorem State.release_txFlushOk (s : State) : (s.release).txFlushOk = s.txFlushOk := rfl
@[simp] theorem State.release_txReady (s : State) : (s.release).txReady = s.txReady := rfl
@[simp] theorem State.release_txFlushReady (s : State) : (s.release).txFlushReady = s.txFlushReady := rfl
@[simp] theorem State.release_knownTypes (s : State) : (s.release).knownTypes = s.knownTypes := rfl
@[simp] theorem State.release_ioDeadline (s : State) : (s.release).ioDeadline = s.ioDeadline := rfl
@[simp] theorem State.release_hostQ (s : State) : (s.release).hostQ = s.hostQ := rfl
@[simp] theorem State.release_env (s : State) : (s.release).env = s.env := rfl
@[simp] theorem State.release_events (s : State) : (s.release).events = s.events := rfl
@[simp] theorem State.release_conn (s : State) : (s.release).conn = s.conn := rfl
@[simp] theorem State.release_released (s : State) : (s.release).released = true := rfl

/-! ### `newConnection` -/

@[simp] theorem State.newConnection_hsState (s : State) (rx : List Byte) : (s.newConnection rx).hsState = State.reset.hsState := rfl
@[simp] theorem State.newConnection_ckState (s : State) (rx : List Byte) : (s.newConnection rx).ckState = State.reset.ckState := rfl
@[simp] theorem State.newConnection_fault (s : State) (rx : List Byte) : (s.newConnection rx).fault = State.reset.fault := rfl
@[simp] theorem State.newConnection_bhB0 (s : State) (rx : List Byte) : (s.newConnection rx).bhB0 = State.reset.bhB0 := rfl
@[simp] theorem State.newConnection_bhFmt (s : State) (rx : List Byte) : (s.newConnection rx).bhFmt = State.reset.bhFmt := rfl
@[simp] theorem State.newConnection_bhForm (s : State) (rx : List Byte) : (s.newConnection rx).bhForm = State.reset.bhForm := rfl
@[simp] theorem State.newConnection_bhCsid (s : State) (rx : List Byte) : (s.newConnection rx).bhCsid = State.reset.bhCsid := rfl
@[simp] theorem State.newConnection_mh (s : State) (rx : List Byte) : (s.newConnection rx).mh = State.reset.mh := rfl
@[simp] theorem State.newConnection_payload (s : State) (rx : List Byte) : (s.newConnection rx).payload = State.reset.payload := rfl
@[simp] theorem State.newConnection_resType (s : State) (rx : List Byte) : (s.newConnection rx).resType = State.reset.resType := rfl
@[simp] theorem State.newConnection_cst (s : State) (rx : List Byte) : (s.newConnection rx).cst = State.reset.cst := rfl
@[simp] theorem State.newConnection_c0 (s : State) (rx : List Byte) : (s.newConnection rx).c0 = State.reset.c0 := rfl
@[simp] theorem State.newConnection_c1 (s : State) (rx : List Byte) : (s.newConnection rx).c1 = State.reset.c1 := rfl
@[simp] theorem State.newConnection_c2 (s : State) (rx : List Byte) : (s.newConnection rx).c2 = State.reset.c2 := rfl
@[simp] theorem State.newConnection_s0 (s : State) (rx : List Byte) : (s.newConnection rx).s0 = State.reset.s0 := rfl
@[simp] theorem State.newConnection_s1 (s : State) (rx : List Byte) : (s.newConnection rx).s1 = State.reset.s1 := rfl
@[simp] theorem State.newConnection_s2 (s : State) (rx : List Byte) : (s.newConnection rx).s2 = State.reset.s2 := rfl
@[simp] theorem State.newConnection_c0Version (s : State) (rx : List Byte) : (s.newConnection rx).c0Version = State.reset.c0Version := rfl
@[simp] theorem State.newConnection_rxPos (s : State) (rx : List Byte) : (s.newConnection rx).rxPos = State.reset.rxPos := rfl
@[simp] theorem State.newConnection_txPos (s : State) (rx : List Byte) : (s.newConnection rx).txPos = State.reset.txPos := rfl
@[simp] theorem State.newConnection_rxAvail (s : State) (rx : List Byte) : (s.newConnection rx).rxAvail = rx := rfl
@[simp] theorem State.newConnection_rxEnd (s : State) (rx : List Byte) : (s.newConnection rx).rxEnd = State.reset.rxEnd := rfl
@[simp] theorem State.newConnection_txPending (s : State) (rx : List Byte) : (s.newConnection rx).txPending = State.reset.txPending := rfl
@[simp] theorem State.newConnection_txOk (s : State) (rx : List Byte) : (s.newConnection rx).txOk = State.reset.txOk := rfl
@[simp] theorem State.newConnection_txFlushOk (s : State) (rx : List Byte) : (s.newConnection rx).txFlushOk = State.reset.txFlushOk := rfl
@[simp] theorem State.newConnection_txReady (s : State) (rx : List Byte) : (s.newConnection rx).txReady = State.reset.txReady := rfl
@[simp] theorem State.newConnection_txFlushReady (s : State) (rx : List Byte) : (s.newConnection rx).txFlushReady = State.reset.txFlushReady := rfl
@[simp] theorem State.newConnection_knownTypes (s : State) (rx : List Byte) : (s.newConnection rx).knownTypes = s.knownTypes := rfl
@[simp] theorem State.newConnection_ioDeadline (s : State) (rx : List Byte) : (s.newConnection rx).ioDeadline = s.ioDeadline := rfl
@[simp] theorem State.newConnection_hostQ (s : State) (rx : List Byte) : (s.newConnection rx).hostQ = State.reset.hostQ := rfl
@[simp] theorem State.newConnection_env (s : State) (rx : List Byte) : (s.newConnection rx).env = s.env := rfl
@[simp] theorem State.newConnection_events (s : State) (rx : List Byte) : (s.newConnection rx).events = State.reset.events := rfl
@[simp] theorem State.newConnection_conn (s : State) (rx : List Byte) : (s.newConnection rx).conn = s.conn + 1 := rfl
@[simp] theorem State.newConnection_released (s : State) (rx : List Byte) : (s.newConnection rx).released = State.reset.released := rfl

end Sys2Proof.Machine
end

