-- ==== Sys2Proof/Laws/Memory.lean ====
section
/-! SUPPORT. The register file: a read after a write, and that every operation keeps the canonical form. -/

namespace Sys2Proof.Machine

@[simp] theorem Memory.read_nil (i : Nat) : Memory.read [] i = none := rfl

@[simp] theorem Memory.read_write_same (m : Memory) (i : Nat) (v : Byte) :
    (Memory.write m i v).read i = some v := by
  induction m with
  | nil => simp [Memory.write, Memory.read]
  | cons c rest ih =>
    obtain ⟨j, w⟩ := c
    simp only [Memory.write]
    split
    · simp [Memory.read]
    · split
      · simp [Memory.read]
      · rw [Memory.read, if_neg (by omega)]; exact ih

theorem Memory.read_write_other (m : Memory) (i n : Nat) (v : Byte) (h : n ≠ i) :
    (Memory.write m i v).read n = m.read n := by
  induction m with
  | nil => simp [Memory.write, Memory.read, Ne.symm h]
  | cons c rest ih =>
    obtain ⟨j, w⟩ := c
    simp only [Memory.write]
    split
    · simp [Memory.read, Ne.symm h]
    · split
      · subst i; simp [Memory.read, Ne.symm h]
      · simp only [Memory.read, ih]

theorem Memory.wfFrom_mono {lo lo' : Nat} (h : lo' ≤ lo) (m : Memory) :
    Memory.wfFrom lo m = true → Memory.wfFrom lo' m = true := by
  cases m with
  | nil => simp [Memory.wfFrom]
  | cons c rest =>
    simp only [Memory.wfFrom, Bool.and_eq_true, decide_eq_true_eq]
    exact fun ⟨⟨a, b⟩, c⟩ => ⟨⟨by omega, b⟩, c⟩

theorem Memory.wfFrom_write (m : Memory) (i : Nat) (v : Byte) (hi : i < Config.cstEntries) :
    ∀ lo, lo ≤ i → Memory.wfFrom lo m = true → Memory.wfFrom lo (Memory.write m i v) = true := by
  induction m with
  | nil => intro lo h _; simp [Memory.write, Memory.wfFrom, h, hi]
  | cons c rest ih =>
    obtain ⟨j, w⟩ := c
    intro lo h hm
    simp only [Memory.wfFrom, Bool.and_eq_true, decide_eq_true_eq] at hm
    simp only [Memory.write]
    split
    · simp only [Memory.wfFrom, Bool.and_eq_true, decide_eq_true_eq]
      exact ⟨⟨h, hi⟩, ⟨by omega, hm.1.2⟩, hm.2⟩
    · split
      · simp only [Memory.wfFrom, Bool.and_eq_true, decide_eq_true_eq]
        subst i; exact ⟨⟨h, hi⟩, hm.2⟩
      · simp only [Memory.wfFrom, Bool.and_eq_true, decide_eq_true_eq]
        exact ⟨hm.1, ih _ (by omega) hm.2⟩

/-- A write to an existing entry keeps the canonical form. -/
theorem Memory.wf_write (m : Memory) (i : Nat) (v : Byte) (hi : i < Config.cstEntries)
    (h : m.wf = true) : (Memory.write m i v).wf = true :=
  Memory.wfFrom_write m i v hi 0 (Nat.zero_le _) h

/-- Any cells are brought into canonical form. -/
theorem Memory.wf_ofCells (l : List (Nat × Byte)) : (Memory.ofCells l).wf = true := by
  induction l with
  | nil => rfl
  | cons c rest ih =>
    obtain ⟨i, v⟩ := c
    simp only [Memory.ofCells]
    split
    · exact Memory.wf_write _ _ _ ‹_› ih
    · exact ih

/-- What a write lists is the written cell or was listed before. -/
theorem Memory.mem_write (m : Memory) (i : Nat) (v : Byte) (c : Host.Cell)
    (h : c ∈ Memory.write m i v) : c = (i, v) ∨ c ∈ m := by
  induction m with
  | nil => simpa [Memory.write] using h
  | cons d rest ih =>
    obtain ⟨j, w⟩ := d
    simp only [Memory.write] at h
    split at h
    · simpa using h
    · split at h
      · rcases List.mem_cons.1 h with h | h
        · exact .inl h
        · exact .inr (List.mem_cons_of_mem _ h)
      · rcases List.mem_cons.1 h with h | h
        · exact .inr (h ▸ List.mem_cons_self)
        · exact (ih h).imp_right (List.mem_cons_of_mem _)

@[simp] theorem State.reset_cst_wf : State.reset.cst.wf = true := rfl

end Sys2Proof.Machine
end

