-- ==== Sys2Proof/Laws/Ops.lean ====
section
/-! SUPPORT. What each shared operation can answer, said once: `RxRead`, `TxWrite`, `TxFlush` and the
operations built on them. -/

namespace Sys2Proof.Machine

/-- `RxRead` with enough bytes (R51 a, b). -/
theorem State.rxRead_enough (s : State) (n : Nat) (h : n ≤ s.rxAvail.length) :
    s.rxRead n = .got (s.rxAvail.take n)
      { s with rxAvail := s.rxAvail.drop n, rxPos := s.rxPos + n } := by
  unfold State.rxRead
  split
  · subst n; simp
  · rfl

/-- `RxRead` on an RX that has ended too soon (R51 c). -/
theorem State.rxRead_ended (s : State) (n : Nat) (h : s.rxAvail.length < n)
    (he : s.rxEnd ≠ .stillOpen) : s.rxRead n = .ended := by
  unfold State.rxRead
  rw [if_neg (by omega), if_neg (by omega), if_neg he]

/-- `RxRead` waits exactly where `rxWaits` says (R51 d). -/
theorem State.rxRead_waits (s : State) (n : Nat) (h : s.rxWaits n = true) : s.rxRead n = .waits := by
  simp only [State.rxWaits, Bool.and_eq_true, decide_eq_true_eq] at h
  unfold State.rxRead
  rw [if_neg (by omega), if_neg (by omega), if_pos h.2]

/-- The four cases of R51 in one. -/
theorem State.rxRead_cases (s : State) (n : Nat) :
    (n ≤ s.rxAvail.length ∧ s.rxRead n = .got (s.rxAvail.take n)
      { s with rxAvail := s.rxAvail.drop n, rxPos := s.rxPos + n }) ∨
    (s.rxAvail.length < n ∧ s.rxEnd ≠ .stillOpen ∧ s.rxRead n = .ended) ∨
    (s.rxAvail.length < n ∧ s.rxWaits n = true ∧ s.rxRead n = .waits) := by
  by_cases h : n ≤ s.rxAvail.length
  · exact .inl ⟨h, s.rxRead_enough n h⟩
  · by_cases he : s.rxEnd = .stillOpen
    · have hw : s.rxWaits n = true := by
        simp only [State.rxWaits, Bool.and_eq_true, decide_eq_true_eq]
        exact ⟨⟨by omega, by omega⟩, he⟩
      exact .inr (.inr ⟨by omega, hw, s.rxRead_waits n hw⟩)
    · exact .inr (.inl ⟨by omega, he, s.rxRead_ended n (by omega) he⟩)

/-- A reading operation runs, raises IoError, or waits. -/
theorem reading_cases (op : Op) (n : Nat) (s : State) (k : List Byte → State → State) :
    (n ≤ s.rxAvail.length ∧ reading op n s k = .next (k (s.rxAvail.take n)
      { s with rxAvail := s.rxAvail.drop n, rxPos := s.rxPos + n })) ∨
    (s.rxAvail.length < n ∧ s.rxEnd ≠ .stillOpen ∧
      reading op n s k = .next (s.raise .ioError op)) ∨
    (s.rxAvail.length < n ∧ s.rxWaits n = true ∧ reading op n s k = .next s) := by
  unfold reading
  rcases s.rxRead_cases n with ⟨h, e⟩ | ⟨h, h', e⟩ | ⟨h, h', e⟩ <;> rw [e]
  · exact .inl ⟨h, rfl⟩
  · exact .inr (.inl ⟨h, h', rfl⟩)
  · exact .inr (.inr ⟨h, h', rfl⟩)

/-- The cases of R52: nothing to write, written, failed, waiting. -/
theorem State.txWrite_cases (s : State) (b : List Byte) :
    (b = [] ∧ s.txWrite b = .done s) ∨
    (b ≠ [] ∧ s.txOk = true ∧ s.txReady = true ∧ s.txWrite b = .done
      { s with
        txPending := s.txPending ++ b
        txPos := s.txPos + b.length
        events := s.events ++ [.tx b] }) ∨
    (b ≠ [] ∧ s.txWaits b = true ∧ s.txWrite b = .waits) ∨
    (b ≠ [] ∧ s.txOk = false ∧ s.txWrite b = .failed (s.sendPart b)) := by
  unfold State.txWrite State.txWaits
  rcases b with _ | ⟨x, b⟩
  · simp
  · cases s.txOk <;> cases s.txReady <;> simp

/-- The cases of R65: flushed, waiting, failed. -/
theorem State.txFlush_cases (s : State) :
    (s.txFlushOk = true ∧ s.txFlushReady = true ∧
      s.txFlush = .done { s with txPending := [], events := s.events ++ [.flush] }) ∨
    (s.flushWaits = true ∧ s.txFlush = .waits) ∨
    (s.txFlushOk = false ∧ s.txFlush = .failed s) := by
  unfold State.txFlush State.flushWaits
  cases s.txFlushOk <;> cases s.txFlushReady <;> simp

/-- A writing operation runs, waits, or raises IoError with a part sent. -/
theorem writing_cases (op : Op) (b : List Byte) (s₀ s : State) (k : State → State) :
    (b = [] ∧ writing op b s₀ s k = .next (k s)) ∨
    (b ≠ [] ∧ s.txOk = true ∧ s.txReady = true ∧ writing op b s₀ s k = .next (k
      { s with
        txPending := s.txPending ++ b
        txPos := s.txPos + b.length
        events := s.events ++ [.tx b] })) ∨
    (b ≠ [] ∧ s.txWaits b = true ∧ writing op b s₀ s k = .next s₀) ∨
    (b ≠ [] ∧ s.txOk = false ∧
      writing op b s₀ s k = .next ((s.sendPart b).raise .ioError op)) := by
  unfold writing
  rcases s.txWrite_cases b with ⟨h, e⟩ | ⟨h, h1, h2, e⟩ | ⟨h, h1, e⟩ | ⟨h, h1, e⟩ <;> rw [e] <;>
    simp_all

/-- A writing operation that flushes: it runs, waits, raises IoError at the write, or raises it at the
flush, the bytes having been written. -/
theorem writingFlush_cases (op : Op) (b : List Byte) (s₀ s : State) (k : State → State)
    (hb : b ≠ []) :
    (s.txOk = true ∧ s.txReady = true ∧ s.txFlushOk = true ∧ s.txFlushReady = true ∧
      writingFlush op b s₀ s k = .next (k
      { s with
        txPending := []
        txPos := s.txPos + b.length
        events := s.events ++ [.tx b, .flush] })) ∨
    ((s.txWaits b = true ∨ s.txOk = true ∧ s.flushWaits = true) ∧
      writingFlush op b s₀ s k = .next s₀) ∨
    (s.txOk = false ∧ writingFlush op b s₀ s k = .next ((s.sendPart b).raise .ioError op)) ∨
    (s.txOk = true ∧ s.txReady = true ∧ s.txFlushOk = false ∧ writingFlush op b s₀ s k = .next
      (State.raise { s with
        txPending := s.txPending ++ b
        txPos := s.txPos + b.length
        events := s.events ++ [.tx b] } .ioError op)) := by
  unfold writingFlush State.txWrite State.txFlush State.txWaits State.flushWaits
  rcases b with _ | ⟨x, b⟩
  · exact absurd rfl hb
  · cases s.txOk <;> cases s.txReady <;> cases s.txFlushOk <;> cases s.txFlushReady <;> simp

/-- A flushing operation runs, waits, or raises IoError. -/
theorem flushing_cases (op : Op) (s : State) (k : State → State) :
    (s.txFlushOk = true ∧ s.txFlushReady = true ∧
      flushing op s k = .next (k { s with txPending := [], events := s.events ++ [.flush] })) ∨
    (s.flushWaits = true ∧ flushing op s k = .next s) ∨
    (s.txFlushOk = false ∧ flushing op s k = .next (s.raise .ioError op)) := by
  unfold flushing
  rcases s.txFlush_cases with ⟨h, h1, e⟩ | ⟨h, e⟩ | ⟨h, e⟩ <;> rw [e] <;> simp_all

@[simp] theorem discarded_length (conn which : Nat) (held : List Byte) :
    (discarded conn which held).length = held.length := by simp [discarded]

@[simp] theorem RandomBlock_length (r : RandomBlock) : r.toList.length = 1528 := by simp

@[simp] theorem encodePacket_length (t z : Word32) (r : RandomBlock) :
    (encodePacket t z r).length = 1536 := by simp [encodePacket, toBe32]

theorem encodePacket_ne_nil (t z : Word32) (r : RandomBlock) : encodePacket t z r ≠ [] := by
  intro h; simpa [h] using encodePacket_length t z r

theorem State.s2Bytes_ne_nil (s : State) : s.s2Bytes ≠ [] := by simp [State.s2Bytes]

/-- S2 has 1536 bytes whenever C1 has (R91). -/
theorem State.s2Bytes_length (s : State) (h : s.c1.length = 1536) : s.s2Bytes.length = 1536 := by
  simp [State.s2Bytes, h]

end Sys2Proof.Machine
end

