-- ==== Sys2Proof/Laws/Step.lean ====
section
/-! SUPPORT. What a step that answers a next state can have done, said once: the inversions of the shared
operations, of the block's turn, of an expiring deadline and of a step. -/

namespace Sys2Proof.Machine

/-- A guarded meaning that answers a next state was enabled. -/
theorem guard_next {b : Bool} {x : Out} {r : Refusal} {t : State}
    (h : (if b then x else .refused r) = .next t) : b = true ∧ x = .next t := by
  cases b
  · simp at h
  · exact ⟨rfl, by simpa using h⟩

/-- A reading operation waited, raised IoError, or ran. -/
theorem reading_next {op : Op} {n : Nat} {s t : State} {k : List Byte → State → State}
    (h : reading op n s k = .next t) :
    t = s ∨ t = s.raise .ioError op ∨
    (n ≤ s.rxAvail.length ∧ t = k (s.rxAvail.take n)
      { s with rxAvail := s.rxAvail.drop n, rxPos := s.rxPos + n }) := by
  rcases reading_cases op n s k with ⟨a, e⟩ | ⟨_, _, e⟩ | ⟨_, _, e⟩ <;> rw [e] at h <;> cases h
  · exact .inr (.inr ⟨a, rfl⟩)
  · exact .inr (.inl rfl)
  · exact .inl rfl

/-- A writing operation waited, raised IoError with a part sent, or ran. -/
theorem writing_next {op : Op} {b : List Byte} {s₀ s t : State} {k : State → State}
    (h : writing op b s₀ s k = .next t) :
    t = s₀ ∨ t = (s.sendPart b).raise .ioError op ∨ (b = [] ∧ t = k s) ∨
    (b ≠ [] ∧ t = k { s with
      txPending := s.txPending ++ b
      txPos := s.txPos + b.length
      events := s.events ++ [.tx b] }) := by
  rcases writing_cases op b s₀ s k with ⟨a, e⟩ | ⟨a, _, _, e⟩ | ⟨_, _, e⟩ | ⟨_, _, e⟩ <;>
    rw [e] at h <;> cases h
  · exact .inr (.inr (.inl ⟨a, rfl⟩))
  · exact .inr (.inr (.inr ⟨a, rfl⟩))
  · exact .inl rfl
  · exact .inr (.inl rfl)

/-- A writing operation that flushes waited, raised IoError at the write or at the flush, or ran. -/
theorem writingFlush_next {op : Op} {b : List Byte} {s₀ s t : State} {k : State → State}
    (hb : b ≠ []) (h : writingFlush op b s₀ s k = .next t) :
    t = s₀ ∨ t = (s.sendPart b).raise .ioError op ∨
    t = State.raise { s with
      txPending := s.txPending ++ b
      txPos := s.txPos + b.length
      events := s.events ++ [.tx b] } .ioError op ∨
    t = k { s with
      txPending := []
      txPos := s.txPos + b.length
      events := s.events ++ [.tx b, .flush] } := by
  rcases writingFlush_cases op b s₀ s k hb with ⟨_, _, _, _, e⟩ | ⟨_, e⟩ | ⟨_, e⟩ | ⟨_, _, _, e⟩ <;>
    rw [e] at h <;> cases h
  · exact .inr (.inr (.inr rfl))
  · exact .inl rfl
  · exact .inr (.inl rfl)
  · exact .inr (.inr (.inl rfl))

/-- A flushing operation waited, raised IoError, or ran. -/
theorem flushing_next {op : Op} {s t : State} {k : State → State} (h : flushing op s k = .next t) :
    t = s ∨ t = s.raise .ioError op ∨
    t = k { s with txPending := [], events := s.events ++ [.flush] } := by
  rcases flushing_cases op s k with ⟨_, _, e⟩ | ⟨_, e⟩ | ⟨_, e⟩ <;> rw [e] at h <;> cases h
  · exact .inr (.inr rfl)
  · exact .inl rfl
  · exact .inr (.inl rfl)

/-- The block's turn: it waits, answers the oldest host call, or runs its own operation. -/
theorem State.turn_next {s t : State} (h : s.turn = .next t) :
    t = s ∨
    (∃ call rest, s.hostQ = call :: rest ∧ blocked call.toInstr s = false ∧
      exec call.toInstr { s with hostQ := rest } = .next t) ∨
    (s.hostQ = [] ∧ s.fault.code = .noFault ∧ ∃ i, s.fetch = .ok i ∧ exec i s = .next t) := by
  unfold State.turn at h
  cases hq : s.hostQ with
  | cons call rest =>
    simp only [hq] at h
    cases hb : blocked call.toInstr s
    · rw [hb] at h
      exact .inr (.inl ⟨call, rest, rfl, hb, by simpa using h⟩)
    · rw [hb] at h
      cases h
      exact .inl rfl
  | nil =>
    simp only [hq] at h
    cases hc : s.fault.code with
    | ioError => simp [hc] at h
    | protocolError => simp [hc] at h
    | noFault =>
      simp only [hc] at h
      cases hf : s.fetch with
      | ok i =>
        simp only [hf] at h
        exact .inr (.inr ⟨rfl, rfl, i, rfl, h⟩)
      | reject r =>
        simp only [hf] at h
        cases h
        exact .inl rfl

/-- Only an operation that reads, writes or flushes waits. -/
theorem blocked_cases {i : Instr} {s : State} (h : blocked i s = true) :
    enabled i s = true ∧ (s.rxWaits (readLen i s) = true ∨ s.txWaits (writeBytes i s) = true ∨
      (flushes i = true ∧ (s.txOk || (writeBytes i s).isEmpty) = true ∧ s.flushWaits = true)) := by
  simp only [blocked, Bool.and_eq_true, Bool.or_eq_true] at h
  obtain ⟨h, (h1 | h1) | h1⟩ := h
  · exact ⟨h, .inl h1⟩
  · exact ⟨h, .inr (.inl h1)⟩
  · exact ⟨h, .inr (.inr ⟨h1.1.1, by simpa using h1.1.2, h1.2⟩)⟩

/-- An expiring deadline does nothing, or runs the waiting operation on a transport that fails it and
then is as before. -/
theorem State.expire_cases (s : State) :
    s.expire = s ∨
    ∃ i t, s.nextOp = .ok i ∧ blocked i s = true ∧ s.ioDeadline.isSome = true ∧
      exec i { s.primitiveFails i with hostQ := s.hostQ.tail } = .next t ∧
      s.expire = { t with rxEnd := s.rxEnd, txOk := s.txOk, txFlushOk := s.txFlushOk } := by
  unfold State.expire
  cases hn : s.nextOp with
  | reject r => exact .inl rfl
  | ok i =>
    by_cases hc : (s.ioDeadline.isSome && blocked i s) = true
    · simp only [hc, if_true]
      simp only [Bool.and_eq_true] at hc
      cases he : exec i { s.primitiveFails i with hostQ := s.hostQ.tail } with
      | next t => exact .inr ⟨i, t, rfl, hc.2, hc.1, he, rfl⟩
      | fault r => exact .inl rfl
      | refused r => exact .inl rfl
    · exact .inl (by simp only [hc, Bool.false_eq_true, if_false])

/-- A step released an ended connection, was an act of the outside, or was the block's turn. -/
theorem step_next {s t : State} (h : step s = .next t) :
    (s.fault.code ≠ .noFault ∧ s.released = false ∧ t = s.release) ∨
    ((s.fault.code = .noFault ∨ s.released = true) ∧
      ((∃ e rest, s.env = e :: rest ∧ t = State.apply { s with env := rest } e) ∨
        ∃ env, State.turn { s with env := env } = .next t)) := by
  unfold step State.advance at h
  by_cases hc : s.fault.code ≠ .noFault ∧ s.released = false
  · rw [if_pos hc] at h
    cases h
    exact .inl ⟨hc.1, hc.2, rfl⟩
  · rw [if_neg hc] at h
    refine .inr ⟨?_, ?_⟩
    · by_cases hf : s.fault.code = .noFault
      · exact .inl hf
      · refine .inr ?_
        cases hr : s.released
        · exact absurd ⟨hf, hr⟩ hc
        · rfl
    · cases he : s.env with
      | nil =>
        rw [he] at h
        refine .inr ⟨[], ?_⟩
        have : { s with env := [] } = s := by rw [← he]
        rw [this]
        exact h
      | cons e rest =>
        rw [he] at h
        cases e
        case tick => exact .inr ⟨rest, h⟩
        all_goals
          cases h
          exact .inl ⟨_, rest, rfl, rfl⟩

end Sys2Proof.Machine
end

