-- ==== Sys2Proof/Laws/Encoding.lean ====
section
/-! SUPPORT. The byte orders, the basic-header fields and the encoders: one lemma per definition, so that
a proof about an encoding cites these and unfolds nothing. -/

namespace Sys2Proof

/-! ### Ranges of the encoder calls -/

theorem encBh1Ok_iff (fmt csid : Nat) :
    encBh1Ok fmt csid = true ↔ fmt ≤ 3 ∧ 2 ≤ csid ∧ csid ≤ 63 := by simp [encBh1Ok, and_assoc]

theorem encBh2Ok_iff (fmt csid : Nat) :
    encBh2Ok fmt csid = true ↔ fmt ≤ 3 ∧ 64 ≤ csid ∧ csid ≤ 319 := by simp [encBh2Ok, and_assoc]

theorem encBh3Ok_iff (fmt csid : Nat) :
    encBh3Ok fmt csid = true ↔ fmt ≤ 3 ∧ 64 ≤ csid ∧ csid ≤ 65599 := by simp [encBh3Ok, and_assoc]

theorem encMh0Ok_iff (ts len type msid : Nat) : encMh0Ok ts len type msid = true ↔
    ts < 2 ^ 24 ∧ len < 2 ^ 24 ∧ type < 2 ^ 8 ∧ msid < 2 ^ 32 := by
  simp [encMh0Ok, and_assoc]; omega

theorem encMh1Ok_iff (tsd len type : Nat) : encMh1Ok tsd len type = true ↔
    tsd < 2 ^ 24 ∧ len < 2 ^ 24 ∧ type < 2 ^ 8 := by
  simp [encMh1Ok, and_assoc]; omega

theorem encMh2Ok_iff (tsd : Nat) : encMh2Ok tsd = true ↔ tsd < 2 ^ 24 := by
  simp [encMh2Ok]; omega

/-! ### Byte orders (R8) -/

theorem be24_toBe24 (v : Nat) (hv : v < 2 ^ 24) (rest : List Byte) :
    be24 (toBe24 v ++ rest) = BitVec.ofNat 24 v := by
  apply BitVec.eq_of_toNat_eq
  simp [be24, toBe24, byteAt]
  omega

theorem be32_toBe32 (v : Nat) (hv : v < 2 ^ 32) (rest : List Byte) :
    be32 (toBe32 v ++ rest) = BitVec.ofNat 32 v := by
  apply BitVec.eq_of_toNat_eq
  simp [be32, toBe32, byteAt]
  omega

theorem le32_toLe32 (v : Nat) (hv : v < 2 ^ 32) (rest : List Byte) :
    le32 (toLe32 v ++ rest) = BitVec.ofNat 32 v := by
  apply BitVec.eq_of_toNat_eq
  simp [le32, toLe32, byteAt]
  omega

/-! ### The first byte of a basic header (R81) -/

theorem fmtOf_eq (b : Byte) : fmtOf b = BitVec.ofNat 2 (b.toNat / 64) := by
  apply BitVec.eq_of_toNat_eq
  simp [fmtOf, BitVec.extractLsb'_toNat, Nat.shiftRight_eq_div_pow]

theorem selOf_toNat (b : Byte) : (selOf b).toNat = b.toNat % 64 := by simp [selOf]

theorem formOf_eq (b : Byte) : formOf b =
    if b.toNat % 64 = 0 then .two else if b.toNat % 64 = 1 then .three else .one := by
  have h0 : selOf b = 0 ↔ b.toNat % 64 = 0 := by rw [← selOf_toNat, ← BitVec.toNat_inj]; rfl
  have h1 : selOf b = 1 ↔ b.toNat % 64 = 1 := by rw [← selOf_toNat, ← BitVec.toNat_inj]; rfl
  simp only [formOf, h0, h1]

theorem csidThree_toNat (b c : Byte) :
    (csidThree b c).toNat = c.toNat * 256 + b.toNat + 64 := by
  have := b.isLt
  have := c.isLt
  simp [csidThree]
  omega

/-- The byte an encoder writes carries `fmt` above the low bits it was given. -/
theorem bhByte0_eq (fmt low : Nat) (hl : low ≤ 63) :
    bhByte0 fmt low = BitVec.ofNat 8 (fmt * 64 + low) := by
  unfold bhByte0
  rw [Nat.shiftLeft_eq, Nat.mul_comm fmt,
    ← Nat.two_pow_add_eq_or_of_lt (i := 6) (by omega)]

theorem formOf_bhByte0 (fmt low : Nat) (hl : low ≤ 63) :
    formOf (bhByte0 fmt low) = if low = 0 then .two else if low = 1 then .three else .one := by
  have h : (BitVec.ofNat 8 (fmt * 64 + low)).toNat % 64 = low := by
    rw [BitVec.toNat_ofNat]; omega
  rw [bhByte0_eq fmt low hl, formOf_eq, h]

end Sys2Proof

namespace Sys2Proof.Machine

/-- A random block is what its 1528 bytes spell, whatever follows them. -/
theorem randomOf_toList (r : RandomBlock) (rest : List Byte) : randomOf (r.toList ++ rest) = r := by
  have hr : (r.toList ++ rest ++ List.replicate 1528 0).take 1528 = r.toList := by
    rw [List.append_assoc, List.take_left' (RandomBlock_length r)]
  apply Vector.toArray_inj.mp
  apply Array.toList_inj.mp
  simp only [randomOf, hr]
  rfl

end Sys2Proof.Machine
end

