-- ==== Sys2Proof/Laws/PerInstr.lean ====
section
/-! SUPPORT. A statement made for every operation: how many bytes its own operands fix (20_memory.md R60,
30_encoding.md R88 to R91, 41_basic_header.md R138 to R140, 42_message_header.md R156 to R159). -/

namespace Sys2Proof.Laws

open Sys2Proof.Machine

/-- The number of bytes an operation's operands fix: what `HS.S0` and `HS.S1` send, the result of an
encoder call, the bytes of an HTX write; every other operation has none. -/
def encodedBytes : Instr → Nat
  | .hsC0 => 0
  | .hsS0 => 1
  | .hsS1 _ _ => 1536
  | .hsC1 => 0
  | .hsS2 => 0
  | .hsC2 => 0
  | .hsDone => 0
  | .bhB0 => 0
  | .bh1 => 0
  | .bh2 => 0
  | .bh3 => 0
  | .encBh1 _ _ => 1
  | .encBh2 _ _ => 2
  | .encBh3 _ _ => 3
  | .mh0 => 0
  | .mh1 => 0
  | .mh2 => 0
  | .mh3 => 0
  | .encMh0 _ _ _ _ => 11
  | .encMh1 _ _ _ => 7
  | .encMh2 _ => 3
  | .encMh3 => 0
  | .payloadLen => 0
  | .payloadNone => 0
  | .resolveDirect => 0
  | .resolveInherit => 0
  | .update => 0
  | .dispatch => 0
  | .drop => 0
  | .htxWrite bytes => bytes.length
  | .htxFlush => 0
  | .ret => 0

/-- A well-formed operation encodes to exactly that many bytes. -/
def EncodeLength.Statement (i : Instr) : Prop :=
  i.wf = true → (encode i).length = encodedBytes i

theorem EncodeLength.hsC0 : EncodeLength.Statement .hsC0 :=
  fun _ => rfl

theorem EncodeLength.hsS0 : EncodeLength.Statement .hsS0 :=
  fun _ => rfl

theorem EncodeLength.hsS1 (t : Word32) (r : RandomBlock) : EncodeLength.Statement (.hsS1 t r) :=
  fun _ => encodePacket_length _ _ _

theorem EncodeLength.hsC1 : EncodeLength.Statement .hsC1 :=
  fun _ => rfl

theorem EncodeLength.hsS2 : EncodeLength.Statement .hsS2 :=
  fun _ => rfl

theorem EncodeLength.hsC2 : EncodeLength.Statement .hsC2 :=
  fun _ => rfl

theorem EncodeLength.hsDone : EncodeLength.Statement .hsDone :=
  fun _ => rfl

theorem EncodeLength.bhB0 : EncodeLength.Statement .bhB0 :=
  fun _ => rfl

theorem EncodeLength.bh1 : EncodeLength.Statement .bh1 :=
  fun _ => rfl

theorem EncodeLength.bh2 : EncodeLength.Statement .bh2 :=
  fun _ => rfl

theorem EncodeLength.bh3 : EncodeLength.Statement .bh3 :=
  fun _ => rfl

theorem EncodeLength.encBh1 (fmt csid : Nat) : EncodeLength.Statement (.encBh1 fmt csid) :=
  fun h => by
    have h : encBh1Ok fmt csid = true := h
    show ((encodeBh1 fmt csid).getD []).length = _
    rw [encodeBh1, if_pos h]; rfl

theorem EncodeLength.encBh2 (fmt csid : Nat) : EncodeLength.Statement (.encBh2 fmt csid) :=
  fun h => by
    have h : encBh2Ok fmt csid = true := h
    show ((encodeBh2 fmt csid).getD []).length = _
    rw [encodeBh2, if_pos h]; rfl

theorem EncodeLength.encBh3 (fmt csid : Nat) : EncodeLength.Statement (.encBh3 fmt csid) :=
  fun h => by
    have h : encBh3Ok fmt csid = true := h
    show ((encodeBh3 fmt csid).getD []).length = _
    rw [encodeBh3, if_pos h]; rfl

theorem EncodeLength.mh0 : EncodeLength.Statement .mh0 :=
  fun _ => rfl

theorem EncodeLength.mh1 : EncodeLength.Statement .mh1 :=
  fun _ => rfl

theorem EncodeLength.mh2 : EncodeLength.Statement .mh2 :=
  fun _ => rfl

theorem EncodeLength.mh3 : EncodeLength.Statement .mh3 :=
  fun _ => rfl

theorem EncodeLength.encMh0 (ts len type msid : Nat) : EncodeLength.Statement (.encMh0 ts len type msid) :=
  fun h => by
    have h : encMh0Ok ts len type msid = true := h
    show ((encodeMh0 ts len type msid).getD []).length = _
    rw [encodeMh0, if_pos h]; rfl

theorem EncodeLength.encMh1 (tsd len type : Nat) : EncodeLength.Statement (.encMh1 tsd len type) :=
  fun h => by
    have h : encMh1Ok tsd len type = true := h
    show ((encodeMh1 tsd len type).getD []).length = _
    rw [encodeMh1, if_pos h]; rfl

theorem EncodeLength.encMh2 (tsd : Nat) : EncodeLength.Statement (.encMh2 tsd) :=
  fun h => by
    have h : encMh2Ok tsd = true := h
    show ((encodeMh2 tsd).getD []).length = _
    rw [encodeMh2, if_pos h]; rfl

theorem EncodeLength.encMh3 : EncodeLength.Statement .encMh3 :=
  fun _ => rfl

theorem EncodeLength.payloadLen : EncodeLength.Statement .payloadLen :=
  fun _ => rfl

theorem EncodeLength.payloadNone : EncodeLength.Statement .payloadNone :=
  fun _ => rfl

theorem EncodeLength.resolveDirect : EncodeLength.Statement .resolveDirect :=
  fun _ => rfl

theorem EncodeLength.resolveInherit : EncodeLength.Statement .resolveInherit :=
  fun _ => rfl

theorem EncodeLength.update : EncodeLength.Statement .update :=
  fun _ => rfl

theorem EncodeLength.dispatch : EncodeLength.Statement .dispatch :=
  fun _ => rfl

theorem EncodeLength.drop : EncodeLength.Statement .drop :=
  fun _ => rfl

theorem EncodeLength.htxWrite (bytes : List Byte) : EncodeLength.Statement (.htxWrite bytes) :=
  fun _ => rfl

theorem EncodeLength.htxFlush : EncodeLength.Statement .htxFlush :=
  fun _ => rfl

theorem EncodeLength.ret : EncodeLength.Statement .ret :=
  fun _ => rfl

end Sys2Proof.Laws
end

