-- ==== Sys2Proof/Tests/Slice0.lean ====
section
/-! SUPPORT. Small tests, expected values from 95_test_vectors.md (the id of the vector stands in each
comment) or worked out by hand from the rule named; and for every obligation with hypotheses a concrete
state that meets them. -/

namespace Sys2Proof.Tests

open Sys2Proof Sys2Proof.Machine

/-- A connection standing at the given control state with these bytes on RX. -/
def st (hs : HsState) (ck : CkState) (rx : List Byte) : State :=
  { State.reset with hsState := hs, ckState := ck, rxAvail := rx }

/-- A connection in mode SESSION. -/
def ses (ck : CkState) (rx : List Byte) : State := st .done ck rx

/-- What the next state shows, if there is one. -/
def got {α : Type} (f : State → α) : Out → Option α
  | .next t => some (f t)
  | .fault _ => none
  | .refused _ => none

/-- The 1528 bytes `AA` of V-HS-6. -/
def blockAA : RandomBlock := Vector.replicate 1528 0xAA

/-- A 1536-byte packet with the given first 8 bytes. -/
def packet (head : List Byte) : List Byte := head ++ List.replicate 1528 0xAB

/-! ## Well-formedness: each range check refuses an operand outside it (V-EB-10, V-EB-11, V-EM-8) -/

theorem test_wf_refuses_encBh1_fmt : (Instr.encBh1 4 3).wf = false := by decide
theorem test_wf_refuses_encBh1_low : (Instr.encBh1 0 1).wf = false := by decide
theorem test_wf_refuses_encBh1_high : (Instr.encBh1 0 64).wf = false := by decide
theorem test_wf_refuses_encBh2_fmt : (Instr.encBh2 4 64).wf = false := by decide
theorem test_wf_refuses_encBh2_low : (Instr.encBh2 0 63).wf = false := by decide
theorem test_wf_refuses_encBh2_high : (Instr.encBh2 0 320).wf = false := by decide
theorem test_wf_refuses_encBh3_fmt : (Instr.encBh3 4 64).wf = false := by decide
theorem test_wf_refuses_encBh3_low : (Instr.encBh3 0 63).wf = false := by decide
theorem test_wf_refuses_encBh3_high : (Instr.encBh3 0 65600).wf = false := by decide
theorem test_wf_refuses_encMh0_ts : (Instr.encMh0 16777216 0 0 0).wf = false := by decide
theorem test_wf_refuses_encMh0_len : (Instr.encMh0 0 16777216 0 0).wf = false := by decide
theorem test_wf_refuses_encMh0_type : (Instr.encMh0 0 0 256 0).wf = false := by decide
theorem test_wf_refuses_encMh0_msid : (Instr.encMh0 0 0 0 4294967296).wf = false := by decide
theorem test_wf_refuses_encMh1_tsd : (Instr.encMh1 16777216 0 0).wf = false := by decide
theorem test_wf_refuses_encMh1_len : (Instr.encMh1 0 16777216 0).wf = false := by decide
theorem test_wf_refuses_encMh1_type : (Instr.encMh1 0 0 256).wf = false := by decide
theorem test_wf_refuses_encMh2_tsd : (Instr.encMh2 16777216).wf = false := by decide
theorem test_wf_refuses_unit_bh : (WireUnit.bh .one 0 64).wf = false ∧
    (WireUnit.bh .two 0 63).wf = false ∧ (WireUnit.bh .three 0 65600).wf = false := by decide

/-! ## Decoding: words written out bit by bit from the encodings -/

/-- R82: the five patterns `ff1xxxxx`, `ff01xxxx`, `ff001xxx`, `ff0001xx`, `ff00001x`. -/
theorem test_decode_bh1 : [0b01100001, 0b00010111, 0b10001001, 0b11000101, 0b01000011].map
    (decodeTableWord 8) = [some .bh1, some .bh1, some .bh1, some .bh1, some .bh1] := by decide

/-- R82: `ff000000` and `ff000001`. -/
theorem test_decode_bh2_bh3 :
    decodeTableWord 8 0b01000000 = some .bh2 ∧ decodeTableWord 8 0b10000001 = some .bh3 := by decide

/-- R89: S0 is the byte `00000011`. -/
theorem test_decode_hsS0 : decodeTableWord 8 0b00000011 = some .hsS0 := by decide

/-- R83 to R85: 11, 7 and 3 bytes; R88: 1536 bytes. -/
theorem test_decode_lengths : decodeTableWord 88 0 = some .mh0 ∧ decodeTableWord 56 0 = some .mh1 ∧
    decodeTableWord 24 0xFFFFFF = some .mh2 ∧ decodeTableWord 12288 0 = some .hsC1 := by decide

/-- No row has 4 bits, 32 bits, or 16 bits that are no 2-byte basic header. -/
theorem test_decode_no_row : decodeTableWord 4 1 = none ∧ decodeTableWord 32 0 = none ∧
    decodeTableWord 16 0x0505 = none := by decide

/-- `ENC.BH1`: `ff` `iiiiii` (V-EB-3: `82` is fmt 2, id 2). -/
theorem test_decode_encBh1 : decode .callBh [0b10000010] = .ok (.encBh1 2 2) := by decide

/-- `ENC.BH2`: `ff000000` and the id less 64 (V-EB-5). -/
theorem test_decode_encBh2 : decodeTableWord 16 0b0100000011111111 = some (.encBh2 1 319) := by
  decide

/-- `ENC.BH3`: `ff000001`, low byte, high byte (V-EB-7). -/
theorem test_decode_encBh3 :
    decodeTableWord 24 0b110000011111111111111111 = some (.encBh3 3 65599) := by decide

/-- `ENC.MH0` (V-EM-4): the stream id is little-endian. -/
theorem test_decode_encMh0 : decode (.callMh 0)
    [0, 0, 0, 0, 0, 0, 0x12, 0x04, 0x03, 0x02, 0x01] = .ok (.encMh0 0 0 18 16909060) := by decide

/-- `ENC.MH1` (V-EM-5). -/
theorem test_decode_encMh1 :
    decode (.callMh 1) [0, 0, 0x21, 0, 0, 4, 8] = .ok (.encMh1 33 4 8) := by decide

/-- `ENC.MH2` (V-EM-6) and `ENC.MH3` (V-EM-7). -/
theorem test_decode_encMh2_encMh3 : decode (.callMh 2) [0, 0x03, 0xE8] = .ok (.encMh2 1000) ∧
    decode (.callMh 3) [] = .ok .encMh3 := by decide

/-- The host port's other calls (R203, R204, R206). -/
theorem test_decode_htx : decode .callWrite [0xAB] = .ok (.htxWrite [0xAB]) ∧
    decode .callFlush [] = .ok .htxFlush ∧ decode .callReturn [] = .ok .ret := by decide

/-- What is not one unit is rejected by name. -/
theorem test_decode_rejects : decode .callBh [] = .reject .truncated ∧
    decode .callBh [0x40] = .reject .truncated ∧ decode .callBh [0x42, 0] = .reject .trailing ∧
    decodeUnit .s0 [6] = .reject .badConstant ∧
    decode (.ofCtl (.at .handler)) [] = .reject .awaitsHost ∧
    decode (.ofCtl { Selector.at .bh0 with live := false }) [] = .reject .failed := by decide

/-- R110: the handshake state names the operation. -/
theorem test_decode_handshake : decode (.ofCtl (.atHs .awaitC0)) [] = .ok .hsC0 ∧
    decode (.ofCtl (.atHs .sendS0)) [] = .ok .hsS0 ∧
    decode (.own (.atHs .sendS1) 7 blockAA) [] = .ok (.hsS1 7 blockAA) ∧
    decode (.ofCtl (.atHs .awaitC1)) [] = .ok .hsC1 ∧
    decode (.ofCtl (.atHs .sendS2)) [] = .ok .hsS2 ∧
    decode (.ofCtl (.atHs .awaitC2)) [] = .ok .hsC2 ∧
    decode (.ofCtl (.atHs .done)) [] = .ok .hsDone :=
  ⟨rfl, rfl, rfl, rfl, rfl, rfl, rfl⟩

/-- R80, R94, R150: the chunk state and what it depends on name the operation. -/
theorem test_decode_chunk : decode (.ofCtl (.at .bh0)) [] = .ok .bhB0 ∧
    decode (.ofCtl { Selector.at .bhx with form := .two }) [] = .ok .bh2 ∧
    decode (.ofCtl { Selector.at .mh with fmt := 3 }) [] = .ok .mh3 ∧
    decode (.ofCtl { Selector.at .payload with lenP := true }) [] = .ok .payloadLen ∧
    decode (.ofCtl (.at .payload)) [] = .ok .payloadNone ∧
    decode (.ofCtl { Selector.at .resolve with typeP := true }) [] = .ok .resolveDirect ∧
    decode (.ofCtl (.at .resolve)) [] = .ok .resolveInherit ∧
    decode (.ofCtl (.at .update)) [] = .ok .update ∧
    decode (.ofCtl { Selector.at .dispatch with known := true }) [] = .ok .dispatch ∧
    decode (.ofCtl (.at .dispatch)) [] = .ok .drop :=
  ⟨rfl, rfl, rfl, rfl, rfl, rfl, rfl, rfl, rfl, rfl⟩

/-- Inbound units in the notation of R95, with what follows left over (V-BH-13, V-MH-3). -/
theorem test_units : decodeUnit .bh [0x01, 0x01, 0x00, 9] = .ok (.bh .three 0 65, [9]) ∧
    decodeUnit (.mh 0) [0x12, 0x34, 0x56, 0, 1, 2, 9, 1, 0, 0, 0] =
      .ok (.mh0 0x123456 258 9 1, []) ∧
    decodeUnit (.payload 2) [0xDE, 0xAD, 0xC4] = .ok (.payload [0xDE, 0xAD], [0xC4]) := by decide

/-! ## Placing a row's word: the very next step runs it -/

theorem test_place_bh1 : got (fun t => (t.bhCsid, t.ckState))
    (step (State.reset.withFetchWord 8 0b01000010)) = some (2, .mh) := by decide

theorem test_place_hsS0 : got (fun t => (t.txPending, t.hsState))
    (step (State.reset.withFetchWord 8 0b00000011)) = some ([3], .sendS1) := by decide

theorem test_place_mh1 : got (fun t => (t.mh.tsd, t.mh.type))
    (step (State.reset.withFetchWord 56 0x00002100000408)) = some (some 33, some 8) := by decide

theorem test_place_encBh2 : got (fun t => t.events)
    (step (State.reset.withFetchWord 16 0x0005)) = some [.encoded .encBh2 [0x00, 0x05]] := by decide

/-! ## The handshake -/

/-- V-HS-2. -/
theorem test_hsC0_any_version : got (fun t => (t.c0Version, t.hsState, t.rxPos, t.rxAvail))
    (exec .hsC0 (st .awaitC0 .idle [6, 9])) = some (6, .sendS0, 1, [9]) := by decide

/-- V-HS-4. -/
theorem test_hsC0_closed : got (fun t => (t.fault, t.events))
    (exec .hsC0 { st .awaitC0 .idle [] with rxEnd := .closed }) =
      some (⟨.ioError, .awaitC0, .idle, .hsC0, 0, false⟩, []) := by decide

/-- V-HS-5: no flush. -/
theorem test_hsS0 : got (fun t => (t.events, t.txPos, t.hsState))
    (exec .hsS0 (st .sendS0 .idle [])) = some ([.tx [3]], 1, .sendS1) := by decide

/-- V-HS-18. -/
theorem test_hsS0_write_fails : got (fun t => t.fault)
    (exec .hsS0 { st .sendS0 .idle [] with txOk := false }) =
      some ⟨.ioError, .sendS0, .idle, .hsS0, 0, false⟩ := by decide

/-- V-HS-6: the bytes and the flush. -/
theorem test_hsS1 : got (fun t => (t.s1.take 9, t.txPending, t.txPos, t.hsState))
    (exec (.hsS1 0x12345678 blockAA) { st .sendS1 .idle [] with txPos := 1 }) =
      some ([0x12, 0x34, 0x56, 0x78, 0, 0, 0, 0, 0xAA], [], 1537, .awaitC1) := by decide +kernel

/-- V-HS-9. -/
theorem test_hsC1 : got (fun t => (t.c1.take 5, t.rxAvail, t.rxPos, t.hsState))
    (exec .hsC1 (st .awaitC1 .idle (packet [0, 0, 0, 1, 0, 0, 0, 0] ++ [7]))) =
      some ([0, 0, 0, 1, 0], [7], 1536, .sendS2) := by decide +kernel

/-- V-HS-11, with 3 bytes. -/
theorem test_hsC1_waits : exec .hsC1 (st .awaitC1 .idle [1, 2, 3]) =
    .next (st .awaitC1 .idle [1, 2, 3]) := rfl

/-- V-HS-13: C1's second field is not echoed. -/
theorem test_hsS2 : got (fun t => (t.s2.take 9, t.s2.length, t.hsState))
    (exec .hsS2 { st .sendS2 .idle [] with
      c1 := packet [0xDE, 0xAD, 0xBE, 0xEF, 0x11, 0x22, 0x33, 0x44] }) =
      some ([0xDE, 0xAD, 0xBE, 0xEF, 0, 0, 0, 0, 0xAB], 1536, .awaitC2) := by decide +kernel

/-- V-HS-14, V-HS-15: nothing is compared. -/
theorem test_hsC2 : got (fun t => (t.rxPos, t.hsState))
    (exec .hsC2 (st .awaitC2 .idle (packet [1, 2, 3, 4, 5, 6, 7, 8]))) =
      some (1536, .done) := by decide +kernel

/-- V-HS-16. -/
theorem test_hsC2_error : got (fun t => t.fault)
    (exec .hsC2 { st .awaitC2 .idle [1, 2] with rxEnd := .failed }) =
      some ⟨.ioError, .awaitC2, .idle, .hsC2, 0, false⟩ := by decide

/-- V-HS-17. -/
theorem test_hsDone : got (fun t => (t.ckState, t.rxPos, t.txPos))
    (exec .hsDone (st .done .idle [])) = some (.bh0, 0, 0) := by decide

/-! ## The basic header -/

/-- V-BH-11, first byte. -/
theorem test_bhB0 : got (fun t => (t.bhFmt, t.bhForm, t.ckState, t.rxAvail))
    (exec .bhB0 (ses .bh0 [0x81, 0x00, 0x01])) = some (2, .three, .bhx, [0x00, 0x01]) := by decide

/-- V-BH-19, V-BH-20: `orderly` tells a close from an error. -/
theorem test_bhB0_ends : [RxEnd.closed, RxEnd.failed].map (fun e =>
    got (fun t => t.fault) (exec .bhB0 { ses .bh0 [] with rxEnd := e })) =
      [some ⟨.ioError, .done, .bh0, .bhB0, 0, true⟩,
        some ⟨.ioError, .done, .bh0, .bhB0, 0, false⟩] := by decide

/-- V-BH-4: `BF` is id 63. -/
theorem test_bh1 : got (fun t => (t.bhCsid, t.ckState, t.rxAvail))
    (exec .bh1 { ses .bhx [9] with bhB0 := 0xBF, bhFmt := 2 }) = some (63, .mh, [9]) := by decide

/-- V-BH-8. -/
theorem test_bh2 : got (fun t => (t.bhCsid, t.ckState))
    (exec .bh2 { ses .bhx [0xFF] with bhForm := .two }) = some (319, .mh) := by decide

/-- V-BH-16. -/
theorem test_bh3 : got (fun t => (t.bhCsid, t.ckState))
    (exec .bh3 { ses .bhx [0xA8, 0x03] with bhForm := .three }) = some (1000, .mh) := by decide

/-- V-BH-18: of the one byte there none is consumed. -/
theorem test_bh3_short : got (fun t => (t.fault, t.rxAvail))
    (exec .bh3 { ses .bhx [0xAA] with bhForm := .three, rxEnd := .closed }) =
      some (⟨.ioError, .done, .bhx, .bh3, 0, false⟩, [0xAA]) := by decide

/-- V-EB-2, V-EB-11. -/
theorem test_encBh1 : got State.events (exec (.encBh1 3 63) State.reset) =
      some [.encoded .encBh1 [0xFF]] ∧
    got State.events (exec (.encBh1 0 64) State.reset) = some [.refusedCall .encBh1] := by decide

/-- V-EB-5, V-EB-11. -/
theorem test_encBh2 : got State.events (exec (.encBh2 1 319) State.reset) =
      some [.encoded .encBh2 [0x40, 0xFF]] ∧
    got State.events (exec (.encBh2 0 320) State.reset) = some [.refusedCall .encBh2] := by decide

/-- V-EB-8, V-EB-11. -/
theorem test_encBh3 : got State.events (exec (.encBh3 0 1000) State.reset) =
      some [.encoded .encBh3 [0x01, 0xA8, 0x03]] ∧
    got State.events (exec (.encBh3 0 63) State.reset) = some [.refusedCall .encBh3] := by decide

/-- V-EB-1, V-EB-4, V-EB-6, V-EB-10, V-EB-12. -/
theorem test_encodeBh_smallest : encodeBh 0 3 = some [0x03] ∧ encodeBh 2 64 = some [0x80, 0x00] ∧
    encodeBh 0 320 = some [0x01, 0x00, 0x01] ∧ encodeBh 0 69 = some [0x00, 0x05] ∧
    encodeBh 0 0 = none ∧ encodeBh 0 1 = none ∧ encodeBh 0 65600 = none ∧
    encodeBh 4 3 = none := by decide

/-! ## The message header -/

/-- V-MH-4. -/
theorem test_mh0 : got (fun t => (t.mh, t.ckState))
    (exec .mh0 (ses .mh [0, 0, 0, 0, 0, 0, 0x12, 0x04, 0x03, 0x02, 0x01])) =
      some (⟨some 0, none, some 0, some 18, some 16909060⟩, .payload) := by decide

/-- V-MH-11, with 10 bytes. -/
theorem test_mh0_short : got (fun t => (t.fault, t.rxAvail.length))
    (exec .mh0 { ses .mh [1, 2, 3, 4, 5, 6, 7, 8, 9, 10] with rxEnd := .closed }) =
      some (⟨.ioError, .done, .mh, .mh0, 0, false⟩, 10) := by decide

/-- V-MH-15: the earlier chunk's timestamp does not survive. -/
theorem test_mh1 : got (fun t => t.mh) (exec .mh1 { ses .mh [0, 0, 0x21, 0, 0, 4, 8] with
    bhFmt := 1, mh := ⟨some 10, none, some 5, some 20, some 0⟩ }) =
      some ⟨none, some 33, some 4, some 8, none⟩ := by decide

/-- V-MH-9: no extended timestamp follows. -/
theorem test_mh2 : got (fun t => (t.mh, t.rxAvail))
    (exec .mh2 { ses .mh [0xFF, 0xFF, 0xFF, 1, 2, 3, 4] with bhFmt := 2 }) =
      some (⟨none, some 16777215, none, none, none⟩, [1, 2, 3, 4]) := by decide

/-- V-MH-14: `MH3` does not fail on a closed RX. -/
theorem test_mh3 : got (fun t => (t.mh, t.ckState, t.fault.code))
    (exec .mh3 { ses .mh [] with
      bhFmt := 3, rxEnd := .closed, mh := ⟨some 10, none, some 5, some 20, some 0⟩ }) =
      some (⟨none, none, none, none, none⟩, .payload, .noFault) := by decide

/-- V-EM-3, V-EM-8. -/
theorem test_encMh0 : got State.events (exec (.encMh0 1193046 258 9 1) State.reset) =
      some [.encoded .encMh0 [0x12, 0x34, 0x56, 0x00, 0x01, 0x02, 0x09, 0x01, 0, 0, 0]] ∧
    got State.events (exec (.encMh0 0 0 0 4294967296) State.reset) =
      some [.refusedCall .encMh0] := by decide

/-- V-EM-5, V-EM-8. -/
theorem test_encMh1 : got State.events (exec (.encMh1 33 4 8) State.reset) =
      some [.encoded .encMh1 [0, 0, 0x21, 0, 0, 4, 8]] ∧
    got State.events (exec (.encMh1 16777216 0 0) State.reset) =
      some [.refusedCall .encMh1] := by decide

/-- V-EM-6, V-EM-8. -/
theorem test_encMh2 : got State.events (exec (.encMh2 1000) State.reset) =
      some [.encoded .encMh2 [0x00, 0x03, 0xE8]] ∧
    got State.events (exec (.encMh2 16777216) State.reset) =
      some [.refusedCall .encMh2] := by decide

/-- V-EM-7. -/
theorem test_encMh3 : got State.events (exec .encMh3 State.reset) =
    some [.encoded .encMh3 []] := by decide

/-! ## Payload, resolution, dispatch -/

/-- V-PL-1. -/
theorem test_payloadLen : got (fun t => (t.payload, t.rxAvail, t.ckState))
    (exec .payloadLen { ses .payload [1, 2, 3, 4, 5, 0xC3] with
      mh := ⟨some 10, none, some 5, some 20, some 0⟩ }) =
      some ([1, 2, 3, 4, 5], [0xC3], .resolve) := by decide

/-- V-PL-3: length 0 on a closed RX is no fault. -/
theorem test_payloadLen_zero : got (fun t => (t.payload, t.fault.code, t.ckState))
    (exec .payloadLen { ses .payload [] with
      rxEnd := .closed, payload := [9], mh := ⟨some 10, none, some 0, some 20, some 0⟩ }) =
      some ([], .noFault, .resolve) := by decide

/-- V-PL-4. -/
theorem test_payloadNone : got (fun t => (t.payload, t.rxAvail, t.ckState))
    (exec .payloadNone { ses .payload [0xAA, 0xBB] with payload := [9] }) =
      some ([], [0xAA, 0xBB], .resolve) := by decide

/-- V-DM-1. -/
theorem test_resolveDirect : got (fun t => (t.resType, t.ckState))
    (exec .resolveDirect { ses .resolve [] with
      bhCsid := 3, mh := ⟨some 0, none, some 0, some 20, some 0⟩ }) = some (20, .update) := by decide

/-- V-DM-3. -/
theorem test_resolveInherit : got (fun t => (t.resType, t.ckState))
    (exec .resolveInherit { ses .resolve [] with bhFmt := 3, bhCsid := 3, cst := [(3, 20)] }) =
      some (20, .update) := by decide

/-- V-DM-5. -/
theorem test_resolveInherit_miss : got (fun t => (t.fault, t.cst, t.resType))
    (exec .resolveInherit { ses .resolve [] with bhFmt := 3, bhCsid := 5, cst := [(3, 20)] }) =
      some (⟨.protocolError, .done, .resolve, .resolveInherit, 5, false⟩, [(3, 20)], 0) := by decide

/-- V-DM-7, and V-DM-6: an entry that holds type 0 is a valid entry. -/
theorem test_update : got (fun t => (t.cst, t.ckState))
    (exec .update { ses .update [] with bhCsid := 3, resType := 8, cst := [(3, 20), (7, 1)] }) =
      some ([(3, 8), (7, 1)], .dispatch) ∧
    got (fun t => t.cst.read 3) (exec .update { ses .update [] with bhCsid := 3 }) =
      some (some 0) := by decide

/-- V-DS-1. -/
theorem test_dispatch : [1, 3, 5, 6, 8, 9, 15, 16, 17, 18, 19, 20, 22].all (fun y : Byte =>
    got (fun t => (t.ckState, t.events.length))
      (exec .dispatch { ses .dispatch [] with resType := y }) == some (.handler, 1)) = true := by
  decide

/-- V-DS-2. -/
theorem test_drop : [0, 2, 4, 7, 10, 14, 21, 23, 99, 255].all (fun y : Byte =>
    got (fun t => (t.ckState, t.events))
      (exec .drop { ses .dispatch [] with resType := y }) == some (.bh0, [.drop y])) = true := by
  decide

/-- V-DS-3, shortened. -/
theorem test_htxWrite : got (fun t => (t.txPending, t.txPos, t.ckState))
    (exec (.htxWrite [0x02, 0x26, 0x25]) { ses .handler [] with txPos := 3073 }) =
      some ([0x02, 0x26, 0x25], 3076, .handler) := by decide

/-- V-DS-5. -/
theorem test_htxWrite_refused : got (fun t => (t.events, t.txPos, t.fault.code))
    (exec (.htxWrite [1]) (ses .bh0 [])) = some ([.refusedCall .htxWrite], 0, .noFault) := by decide

/-- R204. -/
theorem test_htxFlush : got (fun t => (t.txPending, t.events, t.txPos))
    (exec .htxFlush { ses .handler [] with txPending := [1, 2], txPos := 2 }) =
      some ([], [.flush], 2) := by decide

/-- V-DS-4. -/
theorem test_ret : got (fun t => t.ckState) (exec .ret (ses .handler [])) = some .bh0 := by decide

/-- R237, R118, R225: the deadline of a wait at the flush of `HS.S2` leaves the write standing. -/
theorem test_deadline_at_flush : got (fun t => (t.txPos, t.txPending.take 8, t.s2.take 4, t.fault.op))
    (step { st .sendS2 .idle [] with
      c1 := packet [0, 0, 0, 1, 9, 9, 9, 9], txPos := 1537, env := [.deadline], ioDeadline := some 1,
      txFlushReady := false }) =
      some (3073, [0, 0, 0, 1, 0, 0, 0, 0], [0, 0, 0, 1], .hsS2) := by decide +kernel

/-- R237, R52: the deadline of a wait at the write of `HS.S0` sets `s0` and counts no byte. -/
theorem test_deadline_at_write : got (fun t => (t.txPos, t.s0, t.fault.code, t.txOk))
    (step { st .sendS0 .idle [] with env := [.deadline], ioDeadline := some 1, txReady := false }) =
      some (0, [3], .ioError, true) := by decide

/-- R7: the HTX port takes no encode call outside the handler window; R208: the host's own call of it
is answered. -/
theorem test_htx_encode : got (fun t => (t.hostQ, t.events))
      (step { ses .bh0 [] with env := [.htx (.encBh1 0 2)] }) =
        some ([], [.refusedCall .encBh1]) ∧
    got (fun t => (t.hostQ, t.events)) (step { ses .bh0 [] with hostQ := [.encBh1 0 2] }) =
        some ([], [.encoded .encBh1 [0x02]]) := by decide

/-- R21, R22, R220: the numbers of `Done`, `CK_HANDLER` and IoError, and of the record. -/
theorem test_status : (let v := (State.raise (ses .handler []) .ioError .htxWrite).status
    (v.hsState, v.ckState, v.faultCode, v.faultHs, v.faultCk, v.faultOp)) =
      (6, 8, 1, 6, 8, "HTX.WRITE") := by decide

/-! ## Witnesses: every obligation's hypotheses are met -/

/-- A state that has handled a chunk of type 20 on id 3 and stands in its handler window. -/
def handling : State :=
  { ses .handler [] with
    bhB0 := 3
    bhCsid := 3
    mh := ⟨some 10, none, some 1, some 20, some 0⟩
    payload := [7]
    resType := 20
    cst := [(3, 20)]
    rxPos := 3086
    txPos := 0 }

/-- The state before, which is about to dispatch that chunk. -/
def dispatching : State := { handling with ckState := .dispatch }

theorem dispatching_inv : dispatching.Inv := by
  refine ⟨by decide, fun _ => by decide, ⟨rfl, List.length_replicate, List.length_replicate, rfl,
    List.length_replicate, List.length_replicate⟩, by decide, by decide, fun _ _ => rfl,
    fun _ _ => by decide, fun _ _ => by decide, fun _ _ => ?_, fun _ _ => by decide,
    fun _ _ => by decide, by decide⟩
  unfold headerOf
  decide

theorem witness_RstStartsANewConnection : ∃ s : State,
    s.env = [.rst [3]] ∧ (s.fault.code = .noFault ∨ s.released = true) :=
  ⟨{ ses .mh [1] with env := [.rst [3]] }, rfl, .inl rfl⟩

theorem witness_StepRunsTheSelectedOperation : ∃ s u w : State,
    (s.fault.code = .noFault ∧ s.hostQ = [] ∧ s.fetch = .ok .mh3 ∧ s.env = []) ∧
    (u.fault.code = .noFault ∧ u.hostQ = [] ∧ u.fetch = .ok .hsC0 ∧ u.env = [.tick]) ∧
    (w.fault.code = .noFault ∧ w.hostQ = [] ∧ w.fetch = .reject .awaitsHost ∧ w.env = []) :=
  ⟨{ ses .mh [] with bhFmt := 3 }, { State.reset with env := [.tick] }, handling,
    ⟨rfl, rfl, rfl, rfl⟩, ⟨rfl, rfl, rfl, rfl⟩, ⟨rfl, rfl, rfl, rfl⟩⟩

theorem witness_StepAnswersAHostCall : ∃ s u : State,
    (s.fault.code = .noFault ∧ s.env = [] ∧ s.hostQ = [.ret] ∧
      blocked HostCall.ret.toInstr s = false) ∧
    (u.fault.code = .noFault ∧ u.env = [] ∧ u.hostQ = [.flush] ∧
      blocked HostCall.flush.toInstr u = true) :=
  ⟨{ handling with hostQ := [.ret] }, { handling with hostQ := [.flush], txFlushReady := false },
    ⟨rfl, rfl, rfl, rfl⟩, ⟨rfl, rfl, rfl, rfl⟩⟩

/-- One state for each clause: the control state is free. -/
theorem witness_ControlStateSelectsTheOperation (hs : HsState) (ck : CkState) : ∃ s : State,
    s.fault.code = .noFault ∧ s.ckState = ck ∧ s.hsState = hs ∧ s.bhForm = .three ∧ s.bhFmt = 3 :=
  ⟨{ st hs ck [] with bhForm := .three, bhFmt := 3 }, rfl, rfl, rfl, rfl, rfl⟩

theorem witness_OnlyTheSelectedOperationIsEnabled :
    dispatching.Inv ∧ Instr.dispatch.own = true ∧ enabled .dispatch dispatching = true :=
  ⟨dispatching_inv, rfl, rfl⟩

theorem witness_RxArrivesInOrderUntilItEnds : ∃ a b c d : State,
    (a.fault.code = .noFault ∧ a.env = [.rx [1]] ∧ a.rxEnd = .stillOpen) ∧
    (b.fault.code = .noFault ∧ b.env = [.rxClose] ∧ b.rxEnd = .stillOpen) ∧
    (c.fault.code = .noFault ∧ c.env = [.rxError 0] ∧ c.rxEnd = .stillOpen) ∧
    (d.fault.code = .noFault ∧ d.env = [.rx [1]] ∧ d.rxEnd ≠ .stillOpen) :=
  ⟨{ State.reset with env := [.rx [1]] }, { State.reset with env := [.rxClose] },
    { State.reset with env := [.rxError 0] },
    { State.reset with env := [.rx [1]], rxEnd := .closed },
    ⟨rfl, rfl, rfl⟩, ⟨rfl, rfl, rfl⟩, ⟨rfl, rfl, rfl⟩, ⟨rfl, rfl, by decide⟩⟩

/-- At both ends of each encoder's range. -/
theorem witness_DecodeOfEncodeIsTheInstruction : (Instr.encBh1 0 2).wf = true ∧
    (Instr.encBh1 3 63).wf = true ∧ (Instr.encBh2 0 64).wf = true ∧ (Instr.encBh2 3 319).wf = true ∧
    (Instr.encBh3 0 64).wf = true ∧ (Instr.encBh3 3 65599).wf = true ∧
    (Instr.encMh0 16777215 16777215 255 4294967295).wf = true ∧
    (Instr.encMh1 16777215 0 255).wf = true ∧ (Instr.encMh2 16777215).wf = true := by decide

theorem witness_WireUnitsReadBack : (WireUnit.bh .one 3 63).wf = true ∧
    (WireUnit.bh .two 3 319).wf = true ∧ (WireUnit.bh .three 3 65599).wf = true ∧
    (WireUnit.c0 6).wf = true := by decide

theorem witness_HsC0StoresTheVersionByte : ∃ s : State,
    s.fault.code = .noFault ∧ s.hsState = .awaitC0 ∧ s.rxAvail = [6] :=
  ⟨st .awaitC0 .idle [6], rfl, rfl, rfl⟩

theorem witness_HsS0SendsVersionThree : ∃ s : State,
    s.fault.code = .noFault ∧ s.hsState = .sendS0 ∧ s.txOk = true ∧ s.txReady = true :=
  ⟨st .sendS0 .idle [], rfl, rfl, rfl, rfl⟩

theorem witness_HsS1SendsTimeZeroAndRandom : ∃ s : State, s.fault.code = .noFault ∧
    s.hsState = .sendS1 ∧ s.txOk = true ∧ s.txFlushOk = true ∧ s.txReady = true ∧
    s.txFlushReady = true :=
  ⟨st .sendS1 .idle [], rfl, rfl, rfl, rfl, rfl, rfl⟩

theorem witness_HsC1StoresTheClientPacket : ∃ s : State,
    s.fault.code = .noFault ∧ s.hsState = .awaitC1 ∧ 1536 ≤ s.rxAvail.length :=
  ⟨st .awaitC1 .idle (packet [1, 2, 3, 4, 5, 6, 7, 8]), rfl, rfl, by
    show 1536 ≤ (packet _).length
    rw [packet, List.length_append, List.length_replicate]
    decide⟩

theorem witness_HsS2EchoesTimeAndRandom : ∃ (s : State) (time second random : List Byte),
    s.fault.code = .noFault ∧ s.hsState = .sendS2 ∧ s.txOk = true ∧ s.txFlushOk = true ∧
    s.txReady = true ∧ s.txFlushReady = true ∧ s.c1 = time ++ second ++ random ∧ time.length = 4 ∧ second.length = 4 ∧
    random.length = 1528 :=
  ⟨{ st .sendS2 .idle [] with
      c1 := [0, 0, 0, 1] ++ [9, 9, 9, 9] ++ List.replicate 1528 0xAB },
    [0, 0, 0, 1], [9, 9, 9, 9], List.replicate 1528 0xAB, rfl, rfl, rfl, rfl, rfl, rfl, rfl, rfl, rfl,
    List.length_replicate⟩

theorem witness_HsC2EndsTheHandshake : ∃ s : State,
    s.fault.code = .noFault ∧ s.hsState = .awaitC2 ∧ 1536 ≤ s.rxAvail.length :=
  ⟨st .awaitC2 .idle (packet [1, 2, 3, 4, 5, 6, 7, 8]), rfl, rfl, by
    show 1536 ≤ (packet _).length
    rw [packet, List.length_append, List.length_replicate]
    decide⟩

theorem witness_HsDoneOpensTheChunkPath : ∃ s : State,
    s.fault.code = .noFault ∧ s.hsState = .done ∧ s.ckState = .idle :=
  ⟨st .done .idle [], rfl, rfl, rfl⟩

theorem witness_BhB0SelectsTheForm : ∃ s u : State,
    (s.fault.code = .noFault ∧ s.ckState = .bh0 ∧ s.rxAvail = [0xC1, 0xFF]) ∧
    (u.fault.code = .noFault ∧ u.ckState = .bh0 ∧ u.rxAvail = [] ∧ u.rxEnd ≠ .stillOpen) :=
  ⟨ses .bh0 [0xC1, 0xFF], { ses .bh0 [] with rxEnd := .closed }, ⟨rfl, rfl, rfl⟩,
    ⟨rfl, rfl, rfl, by decide⟩⟩

theorem witness_Bh1TakesTheIdFromByteZero : ∃ s : State,
    s.fault.code = .noFault ∧ s.ckState = .bhx ∧ s.bhForm = .one ∧ formOf s.bhB0 = .one :=
  ⟨{ ses .bhx [] with bhB0 := 0xFF }, rfl, rfl, rfl, by decide⟩

theorem witness_Bh2AndBh3ReadTheIdBytes : ∃ s u v w : State,
    (s.fault.code = .noFault ∧ s.ckState = .bhx ∧ s.bhForm = .two ∧ s.rxAvail = [0xFF]) ∧
    (u.fault.code = .noFault ∧ u.ckState = .bhx ∧ u.bhForm = .three ∧ u.rxAvail = [0xFF, 0xFF]) ∧
    (v.fault.code = .noFault ∧ v.ckState = .bhx ∧ v.bhForm = .two ∧ v.rxAvail.length < 1 ∧
      v.rxEnd ≠ .stillOpen) ∧
    (w.fault.code = .noFault ∧ w.ckState = .bhx ∧ w.bhForm = .three ∧ w.rxAvail.length < 2 ∧
      w.rxEnd ≠ .stillOpen) :=
  ⟨{ ses .bhx [0xFF] with bhForm := .two }, { ses .bhx [0xFF, 0xFF] with bhForm := .three },
    { ses .bhx [] with bhForm := .two, rxEnd := .failed },
    { ses .bhx [1] with bhForm := .three, rxEnd := .closed },
    ⟨rfl, rfl, rfl, rfl⟩, ⟨rfl, rfl, rfl, rfl⟩, ⟨rfl, rfl, rfl, by decide, by decide⟩,
    ⟨rfl, rfl, rfl, by decide, by decide⟩⟩

theorem witness_BasicHeaderRoundTrip :
    (∃ s : State, s.fault.code = .noFault ∧ s.ckState = .bh0 ∧
      s.rxAvail = [0xFF] ++ [1] ∧ encodeBh1 3 63 = some [0xFF]) ∧
    (∃ s : State, s.fault.code = .noFault ∧ s.ckState = .bh0 ∧
      s.rxAvail = [0x40, 0xFF] ++ [1] ∧ encodeBh2 1 319 = some [0x40, 0xFF]) ∧
    (∃ s : State, s.fault.code = .noFault ∧ s.ckState = .bh0 ∧
      s.rxAvail = [0xC1, 0xFF, 0xFF] ++ [1] ∧ encodeBh3 3 65599 = some [0xC1, 0xFF, 0xFF]) ∧
    decodeBh [0x01, 0x05, 0x00] = .ok (.bh .three 0 69, []) ∧
    decodeBh [0x01, 0xFF, 0x00] = .ok (.bh .three 0 319, []) ∧
    decodeBh [0x01, 0x00, 0x01] = .ok (.bh .three 0 320, []) ∧
    decodeBh [0x40, 0xFF] = .ok (.bh .two 1 319, []) :=
  ⟨⟨ses .bh0 [0xFF, 1], rfl, rfl, rfl, by decide⟩, ⟨ses .bh0 [0x40, 0xFF, 1], rfl, rfl, rfl, by decide⟩,
    ⟨ses .bh0 [0xC1, 0xFF, 0xFF, 1], rfl, rfl, rfl, by decide⟩, by decide, by decide, by decide,
    by decide⟩

theorem witness_Mh0DecodesElevenBytes : ∃ s u : State,
    (s.fault.code = .noFault ∧ s.ckState = .mh ∧ s.bhFmt = 0 ∧
      s.rxAvail = [0, 0, 10, 0, 0, 5, 20, 0, 0, 0, 1] ++ [7]) ∧
    (u.fault.code = .noFault ∧ u.ckState = .mh ∧ u.bhFmt = 0 ∧ u.rxAvail.length < 11 ∧
      u.rxEnd ≠ .stillOpen) :=
  ⟨ses .mh [0, 0, 10, 0, 0, 5, 20, 0, 0, 0, 1, 7],
    { ses .mh [1, 2, 3, 4, 5, 6, 7, 8, 9, 10] with rxEnd := .closed },
    ⟨rfl, rfl, rfl, rfl⟩, ⟨rfl, rfl, rfl, by decide, by decide⟩⟩

theorem witness_Mh1DecodesSevenBytes : ∃ s u : State,
    (s.fault.code = .noFault ∧ s.ckState = .mh ∧ s.bhFmt = 1 ∧
      s.rxAvail = [0, 0, 33, 0, 0, 4, 8] ++ [7]) ∧
    (u.fault.code = .noFault ∧ u.ckState = .mh ∧ u.bhFmt = 1 ∧ u.rxAvail.length < 7 ∧
      u.rxEnd ≠ .stillOpen) :=
  ⟨{ ses .mh [0, 0, 33, 0, 0, 4, 8, 7] with bhFmt := 1 },
    { ses .mh [1, 2, 3, 4, 5, 6] with bhFmt := 1, rxEnd := .closed },
    ⟨rfl, rfl, rfl, rfl⟩, ⟨rfl, rfl, rfl, by decide, by decide⟩⟩

theorem witness_Mh2AndMh3LeaveFieldsAbsent : ∃ s u v : State,
    (s.fault.code = .noFault ∧ s.ckState = .mh ∧ s.bhFmt = 2 ∧ s.rxAvail = [0, 3, 0xE8] ++ []) ∧
    (u.fault.code = .noFault ∧ u.ckState = .mh ∧ u.bhFmt = 3) ∧
    (v.fault.code = .noFault ∧ v.ckState = .mh ∧ v.bhFmt = 2 ∧ v.rxAvail.length < 3 ∧
      v.rxEnd ≠ .stillOpen) :=
  ⟨{ ses .mh [0, 3, 0xE8] with bhFmt := 2 }, { ses .mh [] with bhFmt := 3 },
    { ses .mh [0, 3] with bhFmt := 2, rxEnd := .failed },
    ⟨rfl, rfl, rfl, rfl⟩, ⟨rfl, rfl, rfl⟩, ⟨rfl, rfl, rfl, by decide, by decide⟩⟩

/-- For each variant. -/
theorem witness_MessageHeaderRoundTrip :
    (∃ s : State, encodeMh 1 ⟨none, some 33, some 4, some 8, none⟩ = some [0, 0, 33, 0, 0, 4, 8] ∧
      s.fault.code = .noFault ∧ s.ckState = .mh ∧ s.bhFmt = 1 ∧
      s.rxAvail = [0, 0, 33, 0, 0, 4, 8] ++ []) ∧
    encodeMh 0 ⟨some 16777215, none, some 0, some 255, some 4294967295⟩ =
      some [0xFF, 0xFF, 0xFF, 0, 0, 0, 0xFF, 0xFF, 0xFF, 0xFF, 0xFF] ∧
    encodeMh 2 ⟨none, some 1000, none, none, none⟩ = some [0, 3, 0xE8] ∧
    encodeMh 3 ⟨none, none, none, none, none⟩ = some [] :=
  ⟨⟨{ ses .mh [0, 0, 33, 0, 0, 4, 8] with bhFmt := 1 }, by decide, rfl, rfl, rfl, rfl⟩,
    by decide, by decide, by decide⟩

theorem witness_PayloadHasTheHeadersLength : ∃ s u v : State,
    (s.fault.code = .noFault ∧ s.ckState = .payload ∧ s.mh.len = some 0 ∧
      (0 : Word24).toNat ≤ s.rxAvail.length) ∧
    (u.fault.code = .noFault ∧ u.ckState = .payload ∧ u.mh.len = none) ∧
    (v.fault.code = .noFault ∧ v.ckState = .payload ∧ v.mh.len = some 16777215 ∧
      v.rxAvail.length < (16777215 : Word24).toNat ∧ v.rxEnd ≠ .stillOpen) :=
  ⟨{ ses .payload [] with mh := ⟨some 0, none, some 0, some 20, some 0⟩ }, ses .payload [],
    { ses .payload [1, 2] with
      rxEnd := .closed, mh := ⟨some 0, none, some 16777215, some 20, some 0⟩ },
    ⟨rfl, rfl, rfl, by decide⟩, ⟨rfl, rfl, rfl⟩, ⟨rfl, rfl, rfl, by decide, by decide⟩⟩

theorem witness_ResolveTakesHeaderOrEntryType : ∃ s u v : State,
    (s.fault.code = .noFault ∧ s.ckState = .resolve ∧ s.mh.type = some 20) ∧
    (u.fault.code = .noFault ∧ u.ckState = .resolve ∧ u.mh.type = none ∧
      u.bhCsid.toNat < 65600 ∧ u.cst.read u.bhCsid.toNat = some 20) ∧
    (v.fault.code = .noFault ∧ v.ckState = .resolve ∧ v.mh.type = none ∧
      v.bhCsid.toNat < 65600 ∧ v.cst.read v.bhCsid.toNat = none) :=
  ⟨{ ses .resolve [] with mh := ⟨some 0, none, some 0, some 20, some 0⟩ },
    { ses .resolve [] with bhCsid := 65599, cst := [(65599, 20)] },
    { ses .resolve [] with bhCsid := 65598, cst := [(65599, 20)] },
    ⟨rfl, rfl, rfl⟩, ⟨rfl, rfl, rfl, by decide, by decide⟩,
    ⟨rfl, rfl, rfl, by decide, by decide⟩⟩

theorem witness_ResolveMissRaisesProtocolError : ∃ s : State, s.fault.code = .noFault ∧
    s.ckState = .resolve ∧ s.mh.type = none ∧ s.bhCsid.toNat < 65600 ∧
    s.cst.read s.bhCsid.toNat = none :=
  ⟨{ ses .resolve [] with bhCsid := 5, cst := [(3, 20)] }, rfl, rfl, rfl, by decide, by decide⟩

theorem witness_UpdateWritesOneEntry : ∃ s : State, s.fault.code = .noFault ∧
    s.ckState = .update ∧ s.bhCsid.toNat < 65600 ∧ s.cst.wf = true :=
  ⟨{ ses .update [] with bhCsid := 65599, cst := [(3, 20)] }, rfl, rfl, by decide, by decide⟩

theorem witness_DispatchDeliversOrDrops : ∃ s u : State,
    (s.fault.code = .noFault ∧ s.ckState = .dispatch ∧ s.resType ∈ s.knownTypes) ∧
    (u.fault.code = .noFault ∧ u.ckState = .dispatch ∧ u.resType ∉ u.knownTypes) :=
  ⟨dispatching, { ses .dispatch [] with resType := 99 },
    ⟨rfl, rfl, by decide⟩, ⟨rfl, rfl, by decide⟩⟩

theorem witness_HtxWriteAppendsTheHostsBytes : handling.fault.code = .noFault ∧
    handling.ckState = .handler ∧ handling.txOk = true ∧ handling.txReady = true ∧
    ([1] : List Byte) ≠ [] := ⟨rfl, rfl, rfl, rfl, by decide⟩

theorem witness_HtxFlushAndReturn : handling.fault.code = .noFault ∧
    handling.ckState = .handler ∧ handling.txFlushOk = true ∧ handling.txFlushReady = true :=
  ⟨rfl, rfl, rfl, rfl⟩

/-- Outside the window on a live connection and after a fault; inside it. -/
theorem witness_HostCallsOutsideTheWindowAreRefused : ∃ s u v : State,
    (s.fault.code = .noFault ∧ s.ckState ≠ .handler ∧ s.env = [.htx .encMh3]) ∧
    (u.fault.code ≠ .noFault ∧ u.released = true ∧ u.env = [.htx (.write [1])]) ∧
    (v.fault.code = .noFault ∧ v.ckState = .handler ∧ v.env = [.htx .encMh3]) :=
  ⟨{ ses .bh0 [] with env := [.htx .encMh3] },
    { handling.raise .ioError .htxWrite with released := true, env := [.htx (.write [1])] },
    { handling with env := [.htx .encMh3] },
    ⟨rfl, by decide, rfl⟩, ⟨by decide, rfl, rfl⟩, ⟨rfl, rfl, rfl⟩⟩

/-- For bytes of RX, for a write, for a flush. -/
theorem witness_WaitingChangesNothing : blocked .bhB0 (ses .bh0 []) = true ∧
    blocked (.htxWrite [1]) { handling with txReady := false } = true ∧
    blocked .htxFlush { handling with txFlushReady := false } = true ∧
    blocked (.hsS1 0 blockAA) { st .sendS1 .idle [] with txFlushReady := false } = true := by
  exact ⟨rfl, rfl, rfl, rfl⟩

theorem witness_ShortReadRaisesIoError : ∃ s : State, enabled .bh3 s = true ∧
    s.rxAvail.length < readLen .bh3 s ∧ s.rxEnd ≠ .stillOpen :=
  ⟨{ ses .bhx [1] with bhForm := .three, rxEnd := .closed }, rfl, by decide, by decide⟩

theorem witness_FailedWriteRaisesIoError (hs : HsState) : ∃ s u : State,
    (s.fault.code = .noFault ∧ s.txOk = false ∧ s.hsState = hs) ∧
    (u.fault.code = .noFault ∧ u.txOk = false ∧ u.ckState = .handler) :=
  ⟨{ st hs .idle [] with txOk := false }, { handling with txOk := false },
    ⟨rfl, rfl, rfl⟩, ⟨rfl, rfl, rfl⟩⟩

theorem witness_FailedFlushRaisesIoError (hs : HsState) : ∃ s u : State,
    (s.fault.code = .noFault ∧ s.txFlushOk = false ∧ s.hsState = hs ∧ s.txOk = true ∧
      s.txReady = true) ∧
    (u.fault.code = .noFault ∧ u.txFlushOk = false ∧ u.ckState = .handler) :=
  ⟨{ st hs .idle [] with txFlushOk := false }, { handling with txFlushOk := false },
    ⟨rfl, rfl, rfl, rfl, rfl⟩, ⟨rfl, rfl, rfl⟩⟩

/-- With no deadline; and with one at a read, at a write, at the flush of `HTX.FLUSH` and of `HS.S2`. -/
theorem witness_DeadlineEndsAWait : ∃ s u r f g : State,
    (s.fault.code = .noFault ∧ s.env = [.deadline] ∧ s.nextOp = .ok .bhB0 ∧
      blocked .bhB0 s = true ∧ s.ioDeadline = none) ∧
    (u.fault.code = .noFault ∧ u.env = [.deadline] ∧ u.nextOp = .ok (.htxWrite [1]) ∧
      blocked (.htxWrite [1]) u = true ∧ u.ioDeadline.isSome = true ∧
      u.txWaits (writeBytes (.htxWrite [1]) u) = true) ∧
    (r.fault.code = .noFault ∧ r.env = [.deadline] ∧ r.nextOp = .ok .bhB0 ∧
      blocked .bhB0 r = true ∧ r.ioDeadline.isSome = true ∧ r.rxWaits (readLen .bhB0 r) = true) ∧
    (f.fault.code = .noFault ∧ f.env = [.deadline] ∧ f.nextOp = .ok .htxFlush ∧
      blocked .htxFlush f = true ∧ f.ioDeadline.isSome = true ∧
      f.rxWaits (readLen .htxFlush f) = false ∧ f.txWaits (writeBytes .htxFlush f) = false) ∧
    (g.fault.code = .noFault ∧ g.env = [.deadline] ∧ g.nextOp = .ok .hsS2 ∧
      blocked .hsS2 g = true ∧ g.ioDeadline.isSome = true ∧
      g.rxWaits (readLen .hsS2 g) = false ∧ g.txWaits (writeBytes .hsS2 g) = false) :=
  ⟨{ ses .bh0 [] with env := [.deadline] },
    { handling with
      env := [.deadline], hostQ := [.write [1]], txReady := false, ioDeadline := some 5 },
    { ses .bh0 [] with env := [.deadline], ioDeadline := some 5 },
    { handling with
      env := [.deadline], hostQ := [.flush], txFlushReady := false, ioDeadline := some 5 },
    { st .sendS2 .idle [] with env := [.deadline], txFlushReady := false, ioDeadline := some 5 },
    ⟨rfl, rfl, rfl, rfl, rfl⟩, ⟨rfl, rfl, rfl, rfl, rfl, rfl⟩, ⟨rfl, rfl, rfl, rfl, rfl, rfl⟩,
    ⟨rfl, rfl, rfl, rfl, rfl, rfl, rfl⟩, ⟨rfl, rfl, rfl, rfl, rfl, rfl, rfl⟩⟩

theorem witness_NothingIsEnabledAfterAFault :
    (handling.raise .ioError .htxWrite).fault.code ≠ .noFault ∧ Instr.bhB0.own = true := by decide

theorem witness_EndedConnectionIsReleased : ∃ s u v : State,
    (s.fault.code ≠ .noFault ∧ s.released = false) ∧
    (u.fault.code = .ioError ∧ u.released = true ∧ u.env = [] ∧ u.hostQ = []) ∧
    (v.fault.code = .protocolError ∧ v.released = true ∧ v.env = [] ∧ v.hostQ = []) :=
  ⟨handling.raise .ioError .htxWrite,
    { State.raise handling .ioError .htxWrite with released := true },
    { State.raise handling .protocolError .resolveInherit with released := true },
    ⟨by decide, rfl⟩, ⟨rfl, rfl, rfl, rfl⟩, ⟨rfl, rfl, rfl, rfl⟩⟩

theorem witness_StepKeepsTheInvariant : ∃ t, dispatching.Inv ∧ step dispatching = .next t :=
  ⟨_, dispatching_inv, rfl⟩

/-- A live connection at `HS.S0` with the byte positions of R121, one step on. -/
theorem witness_StepKeepsHandshakePositions : ∃ s t : State, s.Inv ∧ s.handshakePositions ∧
    step s = .next t ∧ t.fault.code = .noFault ∧ t.ckState = .idle :=
  ⟨{ st .sendS0 .idle [] with rxPos := 1 }, _,
    ⟨rfl, fun _ _ h => (by cases h), ⟨rfl, List.length_replicate, List.length_replicate, rfl,
      List.length_replicate, List.length_replicate⟩, by decide, fun h => (by cases h),
      fun _ h => absurd rfl h, fun _ h => absurd h (by decide), fun _ h => absurd h (by decide),
      fun _ h => absurd h (by decide), fun _ h => absurd h (by decide),
      fun _ h => absurd h (by decide), fun _ h => (by cases h)⟩,
    fun _ _ => ⟨rfl, rfl⟩, rfl, rfl, rfl⟩

theorem witness_StepKeepsTheTxRecord : ∃ s t : State,
    s.txRecord ∧ s.txPending = [9] ∧ step s = .next t :=
  ⟨{ handling with
      hostQ := [.write [1]], txPending := [9], txPos := 3,
      events := [.tx [7, 8], .flush, .tx [9]] }, _, ⟨rfl, rfl⟩, rfl, rfl⟩

/-- For both ways of advancing. -/
theorem witness_ControlStateAdvancesInOrder : ∃ s t u v : State,
    (s.fault.code = .noFault ∧ s.noReset ∧ step s = .next t ∧ t.ckState ∈ s.ckState.successors) ∧
    (u.fault.code = .noFault ∧ u.noReset ∧ step u = .next v ∧
      v.hsState.number = u.hsState.number + 1) :=
  ⟨dispatching, _, st .awaitC0 .idle [3], _,
    ⟨rfl, fun _ _ h => (by cases h), rfl, by decide⟩, ⟨rfl, fun _ _ h => (by cases h), rfl, rfl⟩⟩

/-- For each mode. -/
theorem witness_ModesChangeOnlyForward : ∃ s t u v w x : State,
    (s.noReset ∧ step s = .next t ∧ s.mode = .handshake ∧ t.mode = .session) ∧
    (u.noReset ∧ step u = .next v ∧ u.mode = .session ∧ v.mode = .failed) ∧
    (w.noReset ∧ step w = .next x ∧ w.mode = .failed) :=
  ⟨st .done .idle [], _, { ses .bh0 [] with rxEnd := .closed }, _,
    { State.raise handling .ioError .htxWrite with released := true, env := [.rxClose] }, _,
    ⟨fun _ _ h => (by cases h), rfl, rfl, rfl⟩, ⟨fun _ _ h => (by cases h), rfl, rfl, rfl⟩,
    ⟨fun _ _ h => (by cases h), rfl, rfl⟩⟩

theorem witness_FailedModeIsLeftOnlyByReset : ∃ s t : State,
    s.fault.code ≠ .noFault ∧ step s = .next t ∧ t.fault ≠ s.fault :=
  ⟨{ State.raise handling .ioError .htxWrite with released := true, env := [.rst []] }, _,
    by decide, rfl, by decide⟩

theorem witness_EntriesChangeOnlyByTheirOwnUpdate : ∃ s t : State,
    s.fault.code = .noFault ∧ s.noReset ∧ step s = .next t ∧ t.cst.read 3 ≠ s.cst.read 3 :=
  ⟨{ handling with ckState := .update, cst := [] }, _, rfl, fun _ _ h => (by cases h), rfl, by decide⟩

theorem witness_ExecConsumesExactlyItsBytes : ∃ s t : State,
    exec .bh2 s = .next t ∧ t.rxPos ≠ s.rxPos :=
  ⟨{ ses .bhx [1, 2] with bhForm := .two }, _, rfl, by decide⟩

/-- In the handshake and in a handler window, there for a flush and for a failed write. -/
theorem witness_OnlyItsWritersExtendTx : ∃ s t u v w x y z : State,
    (s.fault.code = .noFault ∧ s.noReset ∧ step s = .next t ∧ t.txPos ≠ s.txPos) ∧
    (u.fault.code = .noFault ∧ u.noReset ∧ step u = .next v ∧ v.txPos ≠ u.txPos) ∧
    (w.fault.code = .noFault ∧ w.noReset ∧ step w = .next x ∧ x.txPending ≠ w.txPending) ∧
    (y.fault.code = .noFault ∧ y.noReset ∧ step y = .next z ∧ txActs z.events ≠ txActs y.events) :=
  ⟨st .sendS0 .idle [], _, { handling with hostQ := [.write [1]] }, _,
    { handling with hostQ := [.flush], txPending := [1] }, _,
    { handling with hostQ := [.write [1]], txOk := false }, _,
    ⟨rfl, fun _ _ h => (by cases h), rfl, by decide⟩, ⟨rfl, fun _ _ h => (by cases h), rfl, by decide⟩,
    ⟨rfl, fun _ _ h => (by cases h), rfl, by decide⟩,
    ⟨rfl, fun _ _ h => (by cases h), rfl, fun h => (by cases congrArg List.length h)⟩⟩

theorem witness_HandlerWindowReadsNothing : ∃ s t : State,
    s.fault.code = .noFault ∧ s.ckState = .handler ∧ s.noReset ∧ step s = .next t ∧ t ≠ s :=
  ⟨{ handling with hostQ := [.ret] }, _, rfl, rfl, fun _ _ h => (by cases h), rfl,
    fun h => absurd (congrArg State.ckState h) (by decide)⟩

theorem witness_HandshakeAnswersTheClient : ∃ (s : State) (c2 : List Byte),
    s.fault.code = .noFault ∧ s.hsState = .awaitC0 ∧ s.ckState = .idle ∧ s.env = [] ∧
    s.hostQ = [] ∧ s.txOk = true ∧ s.txFlushOk = true ∧ s.txReady = true ∧
    s.txFlushReady = true ∧ c2.length = 1536 ∧
    s.rxAvail = handshakeBytes 3 1 0 blockAA c2 ++ [3] :=
  ⟨st .awaitC0 .idle (handshakeBytes 3 1 0 blockAA (List.replicate 1536 0) ++ [3]),
    List.replicate 1536 0, rfl, rfl, rfl, rfl, rfl, rfl, rfl, rfl, rfl, List.length_replicate, rfl⟩

/-- For a known and for an unknown type, in the one-byte and in the three-byte form. -/
theorem witness_TypedChunkIsDeliveredOrDropped : ∃ s u : State,
    (s.fault.code = .noFault ∧ s.ckState = .bh0 ∧ s.env = [] ∧ s.hostQ = [] ∧
      chunkBytes 0 3 ⟨some 10, none, some 2, some 20, some 0⟩ [1, 2] =
        some [3, 0, 0, 10, 0, 0, 2, 20, 0, 0, 0, 0, 1, 2] ∧
      ([1, 2] : List Byte).length = (2 : Word24).toNat ∧
      s.rxAvail = [3, 0, 0, 10, 0, 0, 2, 20, 0, 0, 0, 0, 1, 2] ++ [0xC3] ∧
      (20 : Byte) ∈ s.knownTypes) ∧
    (u.fault.code = .noFault ∧ u.ckState = .bh0 ∧ u.env = [] ∧ u.hostQ = [] ∧
      chunkBytes 1 65599 ⟨none, some 33, some 0, some 99, none⟩ [] =
        some [0x41, 0xFF, 0xFF, 0, 0, 33, 0, 0, 0, 99] ∧
      ([] : List Byte).length = (0 : Word24).toNat ∧
      u.rxAvail = [0x41, 0xFF, 0xFF, 0, 0, 33, 0, 0, 0, 99] ++ [] ∧
      (99 : Byte) ∉ u.knownTypes) :=
  ⟨ses .bh0 [3, 0, 0, 10, 0, 0, 2, 20, 0, 0, 0, 0, 1, 2, 0xC3],
    ses .bh0 [0x41, 0xFF, 0xFF, 0, 0, 33, 0, 0, 0, 99],
    ⟨rfl, rfl, rfl, rfl, by decide, rfl, rfl, by decide⟩,
    ⟨rfl, rfl, rfl, rfl, by decide, rfl, rfl, by decide⟩⟩

/-- For a valid entry (S-6) and for a missing one (S-5). -/
theorem witness_UntypedChunkInheritsOrFails : ∃ s u : State,
    (s.fault.code = .noFault ∧ s.ckState = .bh0 ∧ s.env = [] ∧ s.hostQ = [] ∧
      chunkBytes 3 3 ⟨none, none, none, none, none⟩ [] = some [0xC3] ∧
      s.rxAvail = [0xC3] ++ [] ∧ s.cst.read 3 = some 20) ∧
    (u.fault.code = .noFault ∧ u.ckState = .bh0 ∧ u.env = [] ∧ u.hostQ = [] ∧
      chunkBytes 2 5 ⟨none, some 5, none, none, none⟩ [] = some [0x85, 0, 0, 5] ∧
      u.rxAvail = [0x85, 0, 0, 5] ++ [] ∧ u.cst.read 5 = none) :=
  ⟨{ ses .bh0 [0xC3] with cst := [(3, 20)] }, { ses .bh0 [0x85, 0, 0, 5] with cst := [(3, 20)] },
    ⟨rfl, rfl, rfl, rfl, by decide, rfl, by decide⟩,
    ⟨rfl, rfl, rfl, rfl, by decide, rfl, by decide⟩⟩

end Sys2Proof.Tests
end

section
/-! SUPPORT. What one step does, read forwards: which part of `step` applies to a connection that is not
waiting for its release (00_scope.md R11), what the block's turn does with no host call pending, and where
the control state selects no operation (45_session.md R206). -/

namespace Sys2Proof.Machine

/-- A connection that is live, or ended and already released, has no release ahead of it (R226). -/
theorem not_release_due {s : State} (h : s.fault.code = .noFault ∨ s.released = true) :
    ¬ (s.fault.code ≠ .noFault ∧ s.released = false) := by
  rintro ⟨hf, hr⟩
  rcases h with h | h
  · exact hf h
  · simp [hr] at h

/-- R11: where nothing is scheduled, a step is the block's turn. -/
theorem step_env_nil {s : State} (h : s.fault.code = .noFault ∨ s.released = true)
    (he : s.env = []) : step s = s.turn := by
  unfold step State.advance
  rw [if_neg (not_release_due h), he]

/-- R11: a scheduled `tick` is the block's turn, and is used up. -/
theorem step_env_tick {s : State} {rest : List EnvEvent}
    (h : s.fault.code = .noFault ∨ s.released = true) (he : s.env = .tick :: rest) :
    step s = State.turn { s with env := rest } := by
  unfold step State.advance
  rw [if_neg (not_release_due h), he]

/-- R66 (b): with no host call pending, the turn of a live connection is the selected operation. -/
theorem State.turn_of_fetch_ok {s : State} {i : Instr} (hc : s.fault.code = .noFault)
    (hq : s.hostQ = []) (hf : s.fetch = .ok i) : s.turn = exec i s := by
  simp only [State.turn, hq, hc, hf]

/-- R206: with no host call pending and no operation selected, a live connection waits. -/
theorem State.turn_of_fetch_reject {s : State} {r : Reject} (hc : s.fault.code = .noFault)
    (hq : s.hostQ = []) (hf : s.fetch = .reject r) : s.turn = .next s := by
  simp only [State.turn, hq, hc, hf]

/-- The selector of a live connection passes `select`'s fault test (R23). -/
theorem State.selector_live {s : State} (hc : s.fault.code = .noFault) : s.selector.live = true :=
  decide_eq_true hc

/-- R66, R206: the selector of a live connection names no operation exactly in `CK_HANDLER`. -/
theorem select_reject_iff {c : Selector} {t : Word32} {r : RandomBlock} {e : Reject}
    (hl : c.live = true) :
    select c t r = .reject e ↔ c.ck = .handler ∧ e = .awaitsHost := by
  unfold select
  rw [if_pos hl]
  cases c.ck
  case handler => simpa using eq_comm
  all_goals simp

/-- R66, R206: a live connection has no own operation exactly in `CK_HANDLER`. -/
theorem State.fetch_reject_iff {s : State} {e : Reject} (hc : s.fault.code = .noFault) :
    s.fetch = .reject e ↔ s.ckState = .handler ∧ e = .awaitsHost :=
  select_reject_iff (State.selector_live hc)

/-- Settles O3: with no release due, `step` is the block's turn, and the turn without a host call is
`exec` of what `fetch` answers; `fetch` rejects in `CK_HANDLER` alone. -/
theorem stepRunsTheSelectedOperation : Obligations.StepRunsTheSelectedOperation := by
  intro s hc hq
  refine ⟨fun i hf => ⟨fun he => ?_, fun rest he => ?_⟩, fun r hf => ⟨?_, fun he => ?_⟩⟩
  · rw [step_env_nil (.inl hc) he, State.turn_of_fetch_ok hc hq hf]
  · rw [step_env_tick (.inl hc) he]
    exact State.turn_of_fetch_ok (s := { s with env := rest }) hc hq hf
  · exact ((State.fetch_reject_iff hc).mp hf).1
  · rw [step_env_nil (.inl hc) he, State.turn_of_fetch_reject hc hq hf]

end Sys2Proof.Machine
end

section
/-! SUPPORT. What an operation, and what a step, that answers a next state can have done, said once for
every claim about the whole machine: the four ways an operation of 30_encoding.md R94 goes (R11), and the
five ways a step goes. -/

namespace Sys2Proof.Machine

/-! ### What an operation needs in order to run -/

/-- R23, R225: an operation of the block itself is enabled on a live connection only. -/
theorem live_of_enabled {i : Instr} {s : State} (ho : i.own = true) (h : enabled i s = true) :
    s.fault.code = .noFault := by
  cases i
  case encBh1 | encBh2 | encBh3 | encMh0 | encMh1 | encMh2 | encMh3 | htxWrite | htxFlush | ret =>
    cases ho
  all_goals
    simp only [enabled, State.live, Bool.and_eq_true, decide_eq_true_eq] at h
    simp only [h]

/-- Log 4: an operation of the block that is not enabled is refused by its name. -/
theorem exec_of_not_enabled {i : Instr} {s : State} (ho : i.own = true) (h : enabled i s = false) :
    exec i s = .refused (.notEnabled i.op) := by
  have hn : ¬ enabled i s = true := by simp [h]
  cases i
  case encBh1 | encBh2 | encBh3 | encMh0 | encMh1 | encMh2 | encMh3 | htxWrite | htxFlush | ret =>
    cases ho
  all_goals exact if_neg hn

/-- R208, R223: a host call whose operation answers was enabled, or its refusal is the answer. -/
theorem window_next {b : Bool} {x : Out} {r t : State} (h : (if b then x else .next r) = .next t) :
    (b = true ∧ x = .next t) ∨ t = r := by
  cases b with
  | true => exact .inl ⟨rfl, h⟩
  | false =>
    cases h
    exact .inr rfl

/-! ### The streams -/

/-- RX after `n` bytes have been taken from its front (R51). -/
def State.consumed (s : State) (n : Nat) : State :=
  { s with rxAvail := s.rxAvail.drop n, rxPos := s.rxPos + n }

/-- TX after `bytes` have been written (R52). -/
def State.wrote (s : State) (bytes : List Byte) : State :=
  { s with
    txPending := s.txPending ++ bytes
    txPos := s.txPos + bytes.length
    events := s.events ++ [.tx bytes] }

/-- TX after a flush (R65). -/
def State.flushed (s : State) : State := { s with txPending := [], events := s.events ++ [.flush] }

theorem State.wrote_flushed (s : State) (bytes : List Byte) :
    (s.wrote bytes).flushed = { s with
      txPending := []
      txPos := s.txPos + bytes.length
      events := s.events ++ [.tx bytes, .flush] } := by
  simp [State.wrote, State.flushed]

/-- Setting its buffer changes no field but the three outbound buffers (R112, R113, R115). -/
theorem State.withBuffer_eq (s : State) (i : Instr) :
    s.withBuffer i = { s with
      s0 := (s.withBuffer i).s0, s1 := (s.withBuffer i).s1, s2 := (s.withBuffer i).s2 } := by
  cases i <;> rfl

/-! ### An operation -/

/-- What operation `i` leaves when it runs to its end, and the control state and the input it needs for
that: one case for each operation that changes the block (R111 to R117, R130 to R133, R151 to R154, R171,
R172, R186 to R189, R201 to R206). -/
inductive Completes (s : State) : Instr → State → Prop
  | hsC0 (hs : s.hsState = .awaitC0) (hn : 1 ≤ s.rxAvail.length) :
      Completes s .hsC0 { s.consumed 1 with
        c0 := s.rxAvail.take 1, c0Version := byteAt (s.rxAvail.take 1) 0, hsState := .sendS0 }
  | hsS0 (hs : s.hsState = .sendS0) :
      Completes s .hsS0
        { (s.withBuffer .hsS0).wrote (encodeUnit .s0) with hsState := .sendS1 }
  | hsS1 (t : Word32) (r : RandomBlock) (hs : s.hsState = .sendS1) :
      Completes s (.hsS1 t r)
        { ((s.withBuffer (.hsS1 t r)).wrote (encodeUnit (.s1 t r))).flushed with hsState := .awaitC1 }
  | hsC1 (hs : s.hsState = .awaitC1) (hn : 1536 ≤ s.rxAvail.length) :
      Completes s .hsC1 { s.consumed 1536 with c1 := s.rxAvail.take 1536, hsState := .sendS2 }
  | hsS2 (hs : s.hsState = .sendS2) :
      Completes s .hsS2
        { ((s.withBuffer .hsS2).wrote s.s2Bytes).flushed with hsState := .awaitC2 }
  | hsC2 (hs : s.hsState = .awaitC2) (hn : 1536 ≤ s.rxAvail.length) :
      Completes s .hsC2
        (State.discardHandshake
          { s.consumed 1536 with c2 := s.rxAvail.take 1536, hsState := .done })
  | hsDone (hs : s.hsState = .done) (hc : s.ckState = .idle) :
      Completes s .hsDone { s with ckState := .bh0 }
  | bhB0 (hc : s.ckState = .bh0) :
      Completes s .bhB0 { s.consumed 1 with
        bhB0 := byteAt (s.rxAvail.take 1) 0
        bhFmt := fmtOf (byteAt (s.rxAvail.take 1) 0)
        bhForm := formOf (byteAt (s.rxAvail.take 1) 0)
        ckState := .bhx }
  | bh1 (hc : s.ckState = .bhx) (hf : s.bhForm = .one) :
      Completes s .bh1 { s.consumed 0 with bhCsid := csidOne s.bhB0, ckState := .mh }
  | bh2 (hc : s.ckState = .bhx) (hf : s.bhForm = .two) :
      Completes s .bh2 { s.consumed 1 with
        bhCsid := csidTwo (byteAt (s.rxAvail.take 1) 0), ckState := .mh }
  | bh3 (hc : s.ckState = .bhx) (hf : s.bhForm = .three) :
      Completes s .bh3 { s.consumed 2 with
        bhCsid := csidThree (byteAt (s.rxAvail.take 2) 0) (byteAt (s.rxAvail.take 2) 1)
        ckState := .mh }
  | mh0 (hc : s.ckState = .mh) (hf : s.bhFmt = 0) :
      Completes s .mh0 { s.consumed 11 with
        mh := decodeMh0 (s.rxAvail.take 11), ckState := .payload }
  | mh1 (hc : s.ckState = .mh) (hf : s.bhFmt = 1) :
      Completes s .mh1 { s.consumed 7 with
        mh := decodeMh1 (s.rxAvail.take 7), ckState := .payload }
  | mh2 (hc : s.ckState = .mh) (hf : s.bhFmt = 2) :
      Completes s .mh2 { s.consumed 3 with
        mh := decodeMh2 (s.rxAvail.take 3), ckState := .payload }
  | mh3 (hc : s.ckState = .mh) (hf : s.bhFmt = 3) :
      Completes s .mh3 { s.consumed 0 with mh := decodeMh3, ckState := .payload }
  | payloadLen (hc : s.ckState = .payload) (hp : s.mhLenP = true)
      (hn : s.payloadLength ≤ s.rxAvail.length) :
      Completes s .payloadLen { s.consumed s.payloadLength with
        payload := s.rxAvail.take s.payloadLength, ckState := .resolve }
  | payloadNone (hc : s.ckState = .payload) (hp : s.mhLenP = false) :
      Completes s .payloadNone { s with payload := [], ckState := .resolve }
  | resolveDirect (hc : s.ckState = .resolve) (hp : s.mhTypeP = true) :
      Completes s .resolveDirect { s with resType := s.mh.type.getD 0, ckState := .update }
  | resolveInherit (t : Byte) (hc : s.ckState = .resolve) (hp : s.mhTypeP = false)
      (ht : s.cst.read s.entry = some t) :
      Completes s .resolveInherit { s with resType := t, ckState := .update }
  | update (hc : s.ckState = .update) (he : s.entry < Config.cstEntries) :
      Completes s .update { s with cst := s.cst.write s.entry s.resType, ckState := .dispatch }
  | dispatch (hc : s.ckState = .dispatch) (hk : s.known = true) :
      Completes s .dispatch { s.log (.deliver s.delivery) with ckState := .handler }
  | drop (hc : s.ckState = .dispatch) (hk : s.known = false) :
      Completes s .drop { s.log (.drop s.resType) with ckState := .bh0 }
  | htxWrite (bytes : List Byte) (hc : s.ckState = .handler) (hb : bytes ≠ []) :
      Completes s (.htxWrite bytes) (s.wrote bytes)
  | htxFlush (hc : s.ckState = .handler) : Completes s .htxFlush s.flushed
  | ret (hc : s.ckState = .handler) : Completes s .ret { s with ckState := .bh0 }

/-- What operation `i` has done when it raises: nothing; its buffer set and a part of its bytes sent; or
its buffer set and all of its bytes written, the flush after them having failed (R52, R225, R227). -/
inductive PartDone (i : Instr) (s : State) : State → Prop
  | nothing : PartDone i s s
  | partSent (bytes : List Byte) : PartDone i s ((s.withBuffer i).sendPart bytes)
  | written (bytes : List Byte) : PartDone i s ((s.withBuffer i).wrote bytes)

/-- The four ways an operation that answers a next state goes (R11): it waits; as a host call it is
answered or refused in the record, whatever the mode; or, on a live connection, it raises an exception or
runs to its end. -/
inductive ExecNext (i : Instr) (s : State) : State → Prop
  | waits : ExecNext i s s
  | answers (e : Event) (he : e.onTx = false) : ExecNext i s (s.log e)
  | raises (u : State) (c : FaultCode) (hl : s.fault.code = .noFault) (hu : PartDone i s u)
      (hc : c ≠ .noFault) : ExecNext i s (u.raise c i.op)
  | completes (t : State) (hl : s.fault.code = .noFault) (ht : Completes s i t) : ExecNext i s t

section
variable {i : Instr} {s t : State} {k : State → State} {b : List Byte}

/-- A reading operation, by its completed form. -/
theorem ExecNext.of_reading {n : Nat} {k : List Byte → State → State}
    (hl : s.fault.code = .noFault) (h : reading i.op n s k = .next t)
    (hk : n ≤ s.rxAvail.length → Completes s i (k (s.rxAvail.take n) (s.consumed n))) :
    ExecNext i s t := by
  rcases reading_next h with rfl | rfl | ⟨hn, rfl⟩
  · exact .waits
  · exact .raises _ _ hl .nothing nofun
  · exact .completes _ hl (hk hn)

/-- A writing operation, by its completed form. -/
theorem ExecNext.of_writing (hl : s.fault.code = .noFault)
    (h : writing i.op b s (s.withBuffer i) k = .next t) (hb : b ≠ [])
    (hk : Completes s i (k ((s.withBuffer i).wrote b))) : ExecNext i s t := by
  rcases writing_next h with rfl | rfl | ⟨rfl, _⟩ | ⟨_, rfl⟩
  · exact .waits
  · exact .raises _ _ hl (.partSent b) nofun
  · exact absurd rfl hb
  · exact .completes _ hl hk

/-- A writing operation that flushes, by its completed form. -/
theorem ExecNext.of_writingFlush (hl : s.fault.code = .noFault)
    (h : writingFlush i.op b s (s.withBuffer i) k = .next t) (hb : b ≠ [])
    (hk : Completes s i (k ((s.withBuffer i).wrote b).flushed)) : ExecNext i s t := by
  rcases writingFlush_next hb h with rfl | rfl | rfl | rfl
  · exact .waits
  · exact .raises _ _ hl (.partSent b) nofun
  · exact .raises _ _ hl (.written b) nofun
  · exact .completes _ hl (State.wrote_flushed _ b ▸ hk)

/-- A flushing operation, by its completed form. -/
theorem ExecNext.of_flushing (hl : s.fault.code = .noFault) (h : flushing i.op s k = .next t)
    (hk : Completes s i (k s.flushed)) : ExecNext i s t := by
  rcases flushing_next h with rfl | rfl | rfl
  · exact .waits
  · exact .raises _ _ hl .nothing nofun
  · exact .completes _ hl hk

/-- R208: the answer to an encoder call is one event, and none of TX. -/
theorem ExecNext.of_answer (op : Op) (result : Option (List Byte)) :
    ExecNext i s (s.answer op result) := by
  cases result with
  | some bytes => exact .answers (.encoded op bytes) rfl
  | none => exact .answers (.refusedCall op) rfl

end

/-- Every operation that answers a next state goes one of the four ways (R94, R223). -/
theorem exec_next {i : Instr} {s t : State} (h : exec i s = .next t) : ExecNext i s t := by
  cases i
  case encBh1 | encBh2 | encBh3 | encMh0 | encMh1 | encMh2 | encMh3 =>
    cases h
    exact .of_answer _ _
  case htxWrite bytes =>
    rcases window_next h with ⟨he, h⟩ | rfl
    · simp only [enabled, State.live, Bool.and_eq_true, decide_eq_true_eq] at he
      by_cases hb : bytes = []
      · subst hb
        cases h
        exact .waits
      · exact .of_writing he.1 h hb (.htxWrite bytes he.2 hb)
    · exact .answers _ rfl
  case htxFlush =>
    rcases window_next h with ⟨he, h⟩ | rfl
    · simp only [enabled, State.live, Bool.and_eq_true, decide_eq_true_eq] at he
      exact .of_flushing he.1 h (.htxFlush he.2)
    · exact .answers _ rfl
  case ret =>
    rcases window_next h with ⟨he, h⟩ | rfl
    · simp only [enabled, State.live, Bool.and_eq_true, decide_eq_true_eq] at he
      cases h
      exact .completes _ he.1 (.ret he.2)
    · exact .answers _ rfl
  all_goals
    obtain ⟨he, h⟩ := guard_next h
    have hl := live_of_enabled rfl he
    simp only [enabled, State.live, Bool.and_eq_true, Bool.not_eq_true', decide_eq_true_eq] at he
  case hsC0 => exact .of_reading hl h (.hsC0 he.2)
  case hsS0 => exact .of_writing (i := .hsS0) hl h (List.cons_ne_nil _ _) (.hsS0 he.2)
  case hsS1 =>
    exact .of_writingFlush (i := .hsS1 _ _) hl h (encodePacket_ne_nil _ _ _) (.hsS1 _ _ he.2)
  case hsC1 => exact .of_reading hl h (.hsC1 he.2)
  case hsS2 => exact .of_writingFlush (i := .hsS2) hl h s.s2Bytes_ne_nil (.hsS2 he.2)
  case hsC2 => exact .of_reading hl h (.hsC2 he.2)
  case hsDone =>
    cases h
    exact .completes _ hl (.hsDone he.1.2 he.2)
  case bhB0 => exact .of_reading hl h fun _ => .bhB0 he.2
  case bh1 => exact .of_reading hl h fun _ => .bh1 he.1.2 he.2
  case bh2 => exact .of_reading hl h fun _ => .bh2 he.1.2 he.2
  case bh3 => exact .of_reading hl h fun _ => .bh3 he.1.2 he.2
  case mh0 => exact .of_reading hl h fun _ => .mh0 he.1.2 he.2
  case mh1 => exact .of_reading hl h fun _ => .mh1 he.1.2 he.2
  case mh2 => exact .of_reading hl h fun _ => .mh2 he.1.2 he.2
  case mh3 => exact .of_reading hl h fun _ => .mh3 he.1.2 he.2
  case payloadLen => exact .of_reading hl h (.payloadLen he.1.2 he.2)
  case payloadNone =>
    cases h
    exact .completes _ hl (.payloadNone he.1.2 he.2)
  case resolveDirect =>
    cases h
    exact .completes _ hl (.resolveDirect he.1.2 he.2)
  case resolveInherit =>
    split at h
    · cases hr : s.cst.read s.entry with
      | some v =>
        rw [hr] at h
        cases h
        exact .completes _ hl (.resolveInherit v he.1.2 he.2 hr)
      | none =>
        rw [hr] at h
        cases h
        exact .raises _ _ hl .nothing nofun
    · cases h
  case update =>
    split at h
    · cases h
      exact .completes _ hl (.update he.2 ‹_›)
    · cases h
  case dispatch =>
    cases h
    exact .completes _ hl (.dispatch he.1.2 he.2)
  case drop =>
    cases h
    exact .completes _ hl (.drop he.1.2 he.2)

/-! ### A step -/

/-- `t` is `s` but for what the outside acts on: the bytes and the end of RX, the transport's conditions, the
pending host calls, the schedule (R7, R31). -/
def OutsideOnly (s t : State) : Prop :=
  t = { s with
    rxAvail := t.rxAvail
    rxEnd := t.rxEnd
    txOk := t.txOk
    txFlushOk := t.txFlushOk
    txReady := t.txReady
    txFlushReady := t.txFlushReady
    hostQ := t.hostQ
    env := t.env }

/-- The five ways a step that answers a next state goes: an ended connection is released (R226); a reset
starts a connection (R250); the outside acts (R31), or its call is refused at the port (R7); an operation
runs, on a transport and with a queue and a schedule as the outside leaves them (R11, R237). -/
inductive StepNext (s : State) : State → Prop
  | releases (hc : s.fault.code ≠ .noFault) : StepNext s s.release
  | resets (rx : List Byte) (rest : List EnvEvent) (he : s.env = .rst rx :: rest) :
      StepNext s (State.newConnection { s with env := rest } rx)
  | acts (t : State) (h : OutsideOnly s t) : StepNext s t
  | refuses (u : State) (op : Op) (h : OutsideOnly s u) : StepNext s (u.log (.refusedCall op))
  | runs (i : Instr) (u v t : State) (hu : OutsideOnly s u) (hv : ExecNext i u v)
      (ht : OutsideOnly v t) : StepNext s t

/-- The block's turn, whatever schedule is left, waits or runs an operation (R66). -/
theorem StepNext.of_turn {s t : State} {env : List EnvEvent}
    (h : State.turn { s with env := env } = .next t) : StepNext s t := by
  rcases State.turn_next h with rfl | ⟨call, rest, _, _, hx⟩ | ⟨_, _, i, _, hx⟩
  · exact .acts _ rfl
  · exact .runs call.toInstr { s with env := env, hostQ := rest } t t rfl (exec_next hx) rfl
  · exact .runs i { s with env := env } t t rfl (exec_next hx) rfl

/-- An act of the outside, whatever schedule is left (R31, R237, R250). -/
theorem StepNext.of_apply {s : State} {e : EnvEvent} {rest : List EnvEvent}
    (he : s.env = e :: rest) : StepNext s (State.apply { s with env := rest } e) := by
  cases e with
  | tick => exact .acts _ rfl
  | rx | rxClose | rxError =>
    dsimp only [State.apply]
    split <;> exact .acts _ rfl
  | transport ok flushOk ready flushReady => exact .acts _ rfl
  | deadline =>
    dsimp only [State.apply]
    rcases State.expire_cases { s with env := rest } with hx | ⟨i, t, _, _, _, hx, ht⟩
    · rw [hx]
      exact .acts _ rfl
    · rw [ht]
      exact .runs i _ t _ (by rfl) (exec_next hx) rfl
  | host call => exact .acts _ rfl
  | htx call =>
    dsimp only [State.apply]
    split
    · exact .acts _ rfl
    · exact .refuses { s with env := rest } call.toInstr.op rfl
  | rst rx => exact .resets rx rest he

/-- Every step that answers a next state goes one of the five ways (R11). -/
theorem step_stepNext {s t : State} (h : step s = .next t) : StepNext s t := by
  rcases step_next h with ⟨hc, _, rfl⟩ | ⟨_, ⟨e, rest, he, rfl⟩ | ⟨env, ht⟩⟩
  · exact .releases hc
  · exact .of_apply he
  · exact .of_turn ht

end Sys2Proof.Machine
end

section
/-! SUPPORT. Reset, STATUS and the fault register (10_state.md R23, R34, R35). -/

namespace Sys2Proof.Machine

/-- Settles O1: the values of R35 and R251 stand in `State.reset` as written, and an empty register file
reads as invalid everywhere. -/
theorem resetStartsAnEmptyConnection : Obligations.ResetStartsAnEmptyConnection :=
  ⟨rfl, rfl, rfl, Memory.read_nil, rfl, rfl, rfl, rfl, rfl, rfl⟩

/-- Settles O42: an enabled operation of the block has a live connection, and one that is not enabled is
refused by name. -/
theorem nothingIsEnabledAfterAFault : Obligations.NothingIsEnabledAfterAFault := by
  intro i s hc ho
  have he : enabled i s = false := Bool.eq_false_iff.mpr fun h => hc (live_of_enabled ho h)
  exact ⟨he, exec_of_not_enabled ho he⟩

/-! ### STATUS: each encoding has a left inverse -/

theorem statusHs_injective : Function.Injective statusHs :=
  Function.LeftInverse.injective (g := fun n => hsOfNat n.toNat) fun h => by cases h <;> rfl

theorem statusCk_injective : Function.Injective statusCk :=
  Function.LeftInverse.injective (g := fun n => ckOfNat n.toNat) fun c => by cases c <;> rfl

/-- `fault.code` of its number (R220). -/
def codeOfStatus (n : BitVec 2) : FaultCode :=
  if n = 0 then .noFault else if n = 1 then .ioError else .protocolError

theorem statusCode_injective : Function.Injective statusCode :=
  Function.LeftInverse.injective (g := codeOfStatus) fun c => by cases c <;> rfl

/-- The 32 operations (R94). -/
def allOps : List Op :=
  [.hsC0, .hsS0, .hsS1, .hsC1, .hsS2, .hsC2, .hsDone, .bhB0, .bh1, .bh2, .bh3, .encBh1, .encBh2, .encBh3,
    .mh0, .mh1, .mh2, .mh3, .encMh0, .encMh1, .encMh2, .encMh3, .payloadLen, .payloadNone,
    .resolveDirect, .resolveInherit, .update, .dispatch, .drop, .htxWrite, .htxFlush, .ret]

/-- The operation of a mnemonic. -/
def opOfMnemonic (m : String) : Option Op := allOps.find? fun op => op.mnemonic == m

theorem opOfMnemonic_mnemonic (op : Op) : opOfMnemonic op.mnemonic = some op := by
  cases op <;> decide

theorem mnemonic_injective : Function.Injective Op.mnemonic := fun a b h =>
  Option.some.inj (by rw [← opOfMnemonic_mnemonic a, h, opOfMnemonic_mnemonic b])

/-- R34: the fault register is what STATUS shows of it. -/
theorem fault_eq_of_status_eq {s t : State} (h : s.status = t.status) : s.fault = t.fault := by
  simp only [State.status, Status.mk.injEq] at h
  obtain ⟨_, _, hcode, hhs, hck, hop, hcsid, horderly, _⟩ := h
  calc s.fault = ⟨s.fault.code, s.fault.hs, s.fault.ck, s.fault.op, s.fault.csid, s.fault.orderly⟩ := rfl
    _ = ⟨t.fault.code, t.fault.hs, t.fault.ck, t.fault.op, t.fault.csid, t.fault.orderly⟩ := by
      rw [statusCode_injective hcode, statusHs_injective hhs, statusCk_injective hck,
        mnemonic_injective hop, hcsid, horderly]

/-- Settles O60: the codes by the constructors, the distinctness by the left inverses. -/
theorem statusShowsTheCodesOfTheSpec : Obligations.StatusShowsTheCodesOfTheSpec := by
  intro s t
  refine ⟨?hs, ?ck, ?code, ?faultHs, ?faultCk, rfl, rfl, rfl, rfl, fun h => ?agree⟩
  case hs => unfold State.status; cases s.hsState <;> rfl
  case ck => unfold State.status; cases s.ckState <;> rfl
  case code => unfold State.status; cases s.fault.code <;> rfl
  case faultHs => unfold State.status; cases s.fault.hs <;> rfl
  case faultCk => unfold State.status; cases s.fault.ck <;> rfl
  case agree =>
    exact ⟨statusHs_injective (congrArg Status.hsState h), statusCk_injective (congrArg Status.ckState h),
      fault_eq_of_status_eq h, congrArg Status.c0Version h⟩

/-! ### The fault register -/

/-- R23, R226: on an ended connection an operation that answers leaves the fault register as it is. -/
theorem ExecNext.fault_eq {i : Instr} {s t : State} (hc : s.fault.code ≠ .noFault)
    (h : ExecNext i s t) : t.fault = s.fault := by
  cases h with
  | waits => rfl
  | answers e he => rfl
  | raises u c hl => exact absurd hl hc
  | completes t hl => exact absurd hl hc

theorem OutsideOnly.fault_eq {s t : State} (h : OutsideOnly s t) : t.fault = s.fault := by
  rw [h]

/-- Settles O50: of the five ways a step goes, only a reset changes the fault register of an ended
connection. -/
theorem failedModeIsLeftOnlyByReset : Obligations.FailedModeIsLeftOnlyByReset := by
  intro s t hc hstep hne
  cases step_stepNext hstep with
  | releases => exact absurd rfl hne
  | resets rx rest he => exact ⟨rx, rest, he, rfl⟩
  | acts t h => exact absurd h.fault_eq hne
  | refuses u op h => exact absurd h.fault_eq hne
  | runs i u v t hu hv ht =>
    have hv : v.fault = u.fault := hv.fault_eq (hu.fault_eq ▸ hc)
    exact absurd (ht.fault_eq.trans (hv.trans hu.fault_eq)) hne

end Sys2Proof.Machine
end

section
/-! SUPPORT. The order of the control states (10_state.md R21, R22, R38). -/

namespace Sys2Proof.Machine

/-- R21, R38: `hs_state` and `ck_state` stay, or one of them goes to a successor. -/
def State.Advances (s t : State) : Prop :=
  (t.hsState = s.hsState ∧ (t.ckState = s.ckState ∨ t.ckState ∈ s.ckState.successors)) ∨
  (t.hsState.number = s.hsState.number + 1 ∧ t.ckState = s.ckState)

theorem State.Advances.of_eq {s t : State} (hh : t.hsState = s.hsState) (hc : t.ckState = s.ckState) :
    s.Advances t := .inl ⟨hh, .inl hc⟩

theorem State.Advances.of_hs {s t : State} {h : HsState} (hs : s.hsState = h)
    (hn : t.hsState.number = h.number + 1) (hc : t.ckState = s.ckState) : s.Advances t :=
  .inr ⟨hs ▸ hn, hc⟩

theorem State.Advances.of_ck {s t : State} {c : CkState} (hs : s.ckState = c)
    (hm : t.ckState ∈ c.successors) (hh : t.hsState = s.hsState) : s.Advances t :=
  .inl ⟨hh, .inr (hs ▸ hm)⟩

@[simp] theorem State.withBuffer_hsState (s : State) (i : Instr) :
    (s.withBuffer i).hsState = s.hsState := by rw [s.withBuffer_eq i]

@[simp] theorem State.withBuffer_ckState (s : State) (i : Instr) :
    (s.withBuffer i).ckState = s.ckState := by rw [s.withBuffer_eq i]

/-- R21, R22: each completed operation goes to a successor of its own control state, and a host's write or
flush stays in its own. -/
theorem Completes.advances {i : Instr} {s t : State} (h : Completes s i t) : s.Advances t := by
  cases h
  case htxWrite | htxFlush => exact .of_eq rfl rfl
  case hsC0 hs _ | hsS0 hs | hsS1 hs | hsC1 hs _ | hsS2 hs | hsC2 hs _ => exact .of_hs hs rfl rfl
  all_goals exact .of_ck ‹s.ckState = _› (by simp [CkState.successors]) rfl

/-- R225: an exception records the control state and leaves it. -/
theorem PartDone.control_eq {i : Instr} {s u : State} (h : PartDone i s u) :
    u.hsState = s.hsState ∧ u.ckState = s.ckState := by
  cases h with
  | nothing => exact ⟨rfl, rfl⟩
  | partSent | written => exact ⟨s.withBuffer_hsState i, s.withBuffer_ckState i⟩

theorem ExecNext.advances {i : Instr} {s t : State} (h : ExecNext i s t) : s.Advances t := by
  cases h with
  | waits => exact .of_eq rfl rfl
  | answers e he => exact .of_eq rfl rfl
  | raises u c hl hu hc => exact .of_eq hu.control_eq.1 hu.control_eq.2
  | completes t hl ht => exact ht.advances

theorem OutsideOnly.control_eq {s t : State} (h : OutsideOnly s t) :
    t.hsState = s.hsState ∧ t.ckState = s.ckState := by
  rw [h]
  exact ⟨rfl, rfl⟩

/-- Settles O48: what the outside does leaves the control state, and an operation takes it to a
successor at most. -/
theorem controlStateAdvancesInOrder : Obligations.ControlStateAdvancesInOrder := by
  intro s t hl hr hstep
  change s.Advances t
  cases step_stepNext hstep with
  | releases hc => exact absurd hl hc
  | resets rx rest he => exact absurd he (hr rx rest)
  | acts t h => exact .of_eq h.control_eq.1 h.control_eq.2
  | refuses u op h => exact .of_eq h.control_eq.1 h.control_eq.2
  | runs i u v t hu hv ht =>
    have hv := hv.advances
    unfold State.Advances at hv ⊢
    rwa [ht.control_eq.1, ht.control_eq.2, ← hu.control_eq.1, ← hu.control_eq.2]

end Sys2Proof.Machine
end

section
/-! SUPPORT. The TX record (10_state.md R30, R31; 20_memory.md R52, R65). -/

namespace Sys2Proof.Machine

theorem txStream_append (es fs : List Event) : txStream (es ++ fs) = txStream es ++ txStream fs := by
  induction es with
  | nil => rfl
  | cons e es ih => cases e <;> simp [txStream, ih]

theorem unflushedFrom_append (held : List Byte) (es fs : List Event) :
    unflushedFrom held (es ++ fs) = unflushedFrom (unflushedFrom held es) fs := by
  induction es generalizing held with
  | nil => rfl
  | cons e es ih => cases e <;> simp [unflushedFrom, ih]

namespace State.txRecord
variable {s t : State}

/-- The TX record speaks of three fields. -/
theorem congr (h : s.txRecord) (hpos : t.txPos = s.txPos) (hpend : t.txPending = s.txPending)
    (hev : t.events = s.events) : t.txRecord := by
  unfold State.txRecord
  rwa [hpos, hpend, hev]

/-- R52: a write counts its bytes and leaves them unflushed. -/
theorem wrote (h : s.txRecord) (bytes : List Byte) : (s.wrote bytes).txRecord := by
  obtain ⟨hpos, hpend⟩ := h
  simp [State.txRecord, State.wrote, txStream_append, unflushedFrom_append, txStream, unflushedFrom,
    hpos, hpend]

/-- R65: a flush leaves nothing unflushed and writes nothing. -/
theorem flushed (h : s.txRecord) : s.flushed.txRecord := by
  simp [State.txRecord, State.flushed, txStream_append, unflushedFrom_append, txStream, unflushedFrom,
    h.1]

/-- An event that is neither a write nor a flush leaves the record. -/
theorem log {e : Event} (h : s.txRecord) (hw : ∀ bytes, e ≠ .tx bytes) (hf : e ≠ .flush) :
    (s.log e).txRecord := by
  cases e with
  | tx bytes => exact absurd rfl (hw bytes)
  | flush => exact absurd rfl hf
  | _ =>
    obtain ⟨hpos, hpend⟩ := h
    simp [State.txRecord, txStream_append, unflushedFrom_append, txStream, unflushedFrom, hpos, hpend]

theorem withBuffer (h : s.txRecord) (i : Instr) : (s.withBuffer i).txRecord := by
  rw [s.withBuffer_eq i]
  exact h

end State.txRecord

/-- R52, R60: of the completed operations only the writers and the flush touch TX. -/
theorem Completes.txRecord {i : Instr} {s t : State} (h : Completes s i t) (hs : s.txRecord) :
    t.txRecord := by
  cases h
  case hsS0 => exact (hs.withBuffer _).wrote _
  case hsS1 | hsS2 => exact ((hs.withBuffer _).wrote _).flushed
  case htxWrite => exact hs.wrote _
  case htxFlush => exact hs.flushed
  case dispatch | drop => exact hs.log nofun nofun
  all_goals exact hs

/-- R225, log 13: what a failing operation has put on TX is in the record; a part of a failed write is in
neither count. -/
theorem PartDone.txRecord {i : Instr} {s u : State} (h : PartDone i s u) (hs : s.txRecord) :
    u.txRecord := by
  cases h with
  | nothing => exact hs
  | partSent bytes => exact (hs.withBuffer i).log nofun nofun
  | written bytes => exact (hs.withBuffer i).wrote bytes

theorem ExecNext.txRecord {i : Instr} {s t : State} (h : ExecNext i s t) (hs : s.txRecord) :
    t.txRecord := by
  cases h with
  | waits => exact hs
  | answers e he => exact hs.log (by rintro bytes rfl; cases he) (by rintro rfl; cases he)
  | raises u c hl hu hc => exact hu.txRecord hs
  | completes t hl ht => exact ht.txRecord hs

theorem OutsideOnly.txRecord {s t : State} (h : OutsideOnly s t) (hs : s.txRecord) : t.txRecord := by
  rw [h]
  exact hs

/-- Settles O47: only a write and a flush change the three fields, each as the record of events says. -/
theorem stepKeepsTheTxRecord : Obligations.StepKeepsTheTxRecord := by
  intro s t hs hstep
  cases step_stepNext hstep with
  | releases hc => exact hs
  | resets rx rest he => exact ⟨rfl, rfl⟩
  | acts t h => exact h.txRecord hs
  | refuses u op h => exact (h.txRecord hs).log nofun nofun
  | runs i u v t hu hv ht => exact ht.txRecord (hv.txRecord (hu.txRecord hs))

end Sys2Proof.Machine
end

section
/-! SUPPORT. The invariant (10_state.md R22, R25 to R28; 20_memory.md R53; 41_basic_header.md R130, R135;
43_chunk_reader.md R173; 45_session.md R201; 60_exceptions.md R226; 70_reset_and_hazards.md R257): its
clauses that hold in every control state, and what each `ck_state` adds to them. -/

namespace Sys2Proof.Machine

/-! ### The two halves of the invariant -/

/-- The clauses of the invariant that hold in every control state, the storage being what they speak of. -/
structure State.StorageInv (s : State) : Prop where
  cst_wf : s.cst.wf = true
  cst_ids : s.fault.code = .noFault → ∀ cell ∈ s.cst, Config.csidMin ≤ cell.1
  sizes : s.c0.length = 1 ∧ s.c1.length = 1536 ∧ s.c2.length = 1536 ∧
    s.s0.length = 1 ∧ s.s1.length = 1536 ∧ s.s2.length = 1536
  payload_max : s.payload.length ≤ Config.maxMsgLen
  released_ended : s.released = true → s.fault.code ≠ .noFault

/-- `bh_fmt` and `bh_form` are those of `bh_b0` (R130). -/
def State.headerRead (s : State) : Prop := s.bhFmt = fmtOf s.bhB0 ∧ s.bhForm = formOf s.bhB0

/-- `bh_csid` is in 2 to 65599 (R135). -/
def State.idInRange (s : State) : Prop :=
  Config.csidMin ≤ s.bhCsid.toNat ∧ s.bhCsid.toNat ≤ Config.csidMax

/-- The payload has `message_length` bytes, or none (R173). -/
def State.payloadFits (s : State) : Prop := s.payload.length = s.payloadLength

/-- The entry of the chunk's id holds its resolved type (R257). -/
def State.entryWritten (s : State) : Prop := s.cst.read s.entry = some s.resType

/-- What the invariant says of the current chunk in each `ck_state` of a live connection: every operation of
the chunk path adds its own fact. -/
abbrev State.chunkFacts (s : State) : CkState → Prop
  | .idle | .bh0 => True
  | .bhx => s.headerRead
  | .mh => s.headerRead ∧ s.idInRange
  | .payload => s.headerRead ∧ s.idInRange ∧ headerOf s.bhFmt s.mh
  | .resolve | .update => s.headerRead ∧ s.idInRange ∧ headerOf s.bhFmt s.mh ∧ s.payloadFits
  | .dispatch =>
    s.headerRead ∧ s.idInRange ∧ headerOf s.bhFmt s.mh ∧ s.payloadFits ∧ s.entryWritten
  | .handler =>
    s.headerRead ∧ s.idInRange ∧ headerOf s.bhFmt s.mh ∧ s.payloadFits ∧ s.entryWritten ∧
      s.known = true

namespace State.Inv
variable {s t : State}

theorem storage (h : s.Inv) : s.StorageInv := { h with }

/-- The invariant gives the facts of the control state. -/
theorem chunkFacts (h : s.Inv) (hl : s.fault.code = .noFault) : s.chunkFacts s.ckState := by
  have hheader := h.header_byte hl
  have hid := h.csid_range hl
  have hflags := h.header_flags hl
  have hpayload := h.payload_len hl
  have hentry := h.entry_written hl
  have hknown := h.handler_known hl
  unfold State.chunkFacts
  cases hc : s.ckState <;> simp only [hc, CkState.number] at * <;>
    simp_all [State.headerRead, State.idInRange, State.payloadFits, State.entryWritten]

/-- The facts of the control state, and the storage, give the invariant. -/
theorem of_chunkFacts (hs : s.StorageInv) (hd : s.ckState ≠ .idle → s.hsState = .done)
    (hf : s.chunkFacts s.ckState) : s.Inv := by
  unfold State.chunkFacts at hf
  cases hc : s.ckState <;> simp only [hc] at hf <;>
    exact { hs with
      chunk_done := fun _ => hd
      header_byte := fun _ hn => by simp_all [CkState.number, State.headerRead]
      csid_range := fun _ hn => by simp_all [CkState.number, State.idInRange]
      header_flags := fun _ hn => by simp_all [CkState.number]
      payload_len := fun _ hn => by simp_all [CkState.number, State.payloadFits]
      entry_written := fun _ hn => by simp_all [CkState.number, State.entryWritten]
      handler_known := fun _ hk => by simp_all }

/-- R22: with `ck_state = CK_IDLE` the storage is all the invariant speaks of. -/
theorem of_idle (hs : s.StorageInv) (hc : s.ckState = .idle) : s.Inv :=
  .of_chunkFacts hs (absurd hc) (hc ▸ trivial)

/-- R36: on an ended connection the invariant speaks of the storage alone. -/
theorem of_ended (hc : s.fault.code ≠ .noFault) (hs : s.StorageInv) : s.Inv :=
  { hs with
    chunk_done := fun h => absurd h hc
    header_byte := fun h => absurd h hc
    csid_range := fun h => absurd h hc
    header_flags := fun h => absurd h hc
    payload_len := fun h => absurd h hc
    entry_written := fun h => absurd h hc
    handler_known := fun h => absurd h hc }

/-- R22: before `hs_state = Done` there is no chunk. -/
theorem idle_of_ne_done (h : s.Inv) (hl : s.fault.code = .noFault) (hs : s.hsState ≠ .done) :
    s.ckState = .idle := by
  by_contra hc
  exact hs (h.chunk_done hl hc)

end State.Inv

/-! ### The ranges of what a chunk's registers get -/

/-- R82, R135: the 1-byte form spells 2 to 63. -/
theorem csidOne_range {b0 : Byte} (h : formOf b0 = .one) :
    Config.csidMin ≤ (csidOne b0).toNat ∧ (csidOne b0).toNat ≤ Config.csidMax := by
  have hlt := (selOf b0).isLt
  have hsel := selOf_toNat b0
  have hrange : b0.toNat % 64 ≠ 0 ∧ b0.toNat % 64 ≠ 1 := by
    rw [formOf_eq] at h
    constructor <;> intro hm <;> simp [hm] at h
  simp only [csidOne, BitVec.toNat_ofNat, Config.csidMin, Config.csidMax]
  omega

/-- R82, R135: the 2-byte form spells 64 to 319. -/
theorem csidTwo_range (b1 : Byte) :
    Config.csidMin ≤ (csidTwo b1).toNat ∧ (csidTwo b1).toNat ≤ Config.csidMax := by
  have hlt := b1.isLt
  simp only [csidTwo, BitVec.toNat_ofNat, Config.csidMin, Config.csidMax]
  omega

/-- R82, R135: the 3-byte form spells 64 to 65599. -/
theorem csidThree_range (b1 b2 : Byte) :
    Config.csidMin ≤ (csidThree b1 b2).toNat ∧ (csidThree b1 b2).toNat ≤ Config.csidMax := by
  have hlt1 := b1.isLt
  have hlt2 := b2.isLt
  rw [csidThree_toNat]
  simp only [Config.csidMin, Config.csidMax]
  omega

/-- R26: a 24-bit length is at most `MAX_MSG_LEN`. -/
theorem State.payloadLength_le (s : State) : s.payloadLength ≤ Config.maxMsgLen := by
  unfold State.payloadLength Config.maxMsgLen
  cases s.mh.len with
  | none => exact Nat.zero_le _
  | some n => exact Nat.le_of_lt_succ n.isLt

/-- R173: a header without a length stands for no bytes. -/
theorem State.payloadLength_of_absent {s : State} (h : s.mhLenP = false) : s.payloadLength = 0 := by
  unfold State.payloadLength
  rw [Option.not_isSome_iff_eq_none.mp (Bool.eq_false_iff.mp h)]
  rfl

/-! ### The storage -/

namespace State.StorageInv
variable {s : State}

/-- R112, R113, R115: the outbound buffers are set to packets of their sizes. -/
theorem withBuffer (h : s.StorageInv) (i : Instr) : (s.withBuffer i).StorageInv := by
  obtain ⟨hc0, hc1, hc2, hs0, hs1, hs2⟩ := h.sizes
  cases i
  case hsS0 => exact { h with sizes := ⟨hc0, hc1, hc2, rfl, hs1, hs2⟩ }
  case hsS1 t r => exact { h with sizes := ⟨hc0, hc1, hc2, hs0, encodePacket_length t 0 r, hs2⟩ }
  case hsS2 => exact { h with sizes := ⟨hc0, hc1, hc2, hs0, hs1, s.s2Bytes_length hc1⟩ }
  all_goals exact h

/-- R28, log 8: discarded buffers keep their sizes. -/
theorem discardHandshake (h : s.StorageInv) : s.discardHandshake.StorageInv :=
  { h with sizes := by simpa [State.discardHandshake] using h.sizes }

/-- R27, R53: writing the entry of an id keeps the register file canonical and of ids. -/
theorem writeEntry (h : s.StorageInv) (v : Byte) (c : CkState) (hid : s.idInRange)
    (he : s.entry < Config.cstEntries) :
    State.StorageInv { s with cst := s.cst.write s.entry v, ckState := c } :=
  { h with
    cst_wf := Memory.wf_write _ _ _ he h.cst_wf
    cst_ids := fun hl cell hm => by
      rcases Memory.mem_write _ _ _ _ hm with rfl | hm
      · exact hid.1
      · exact h.cst_ids hl cell hm }

end State.StorageInv

/-! ### Every step -/

/-- Each completed operation adds its fact to those of the control state before it. -/
theorem Completes.inv {i : Instr} {s t : State} (h : Completes s i t) (hs : s.Inv)
    (hl : s.fault.code = .noFault) : t.Inv := by
  have hst := hs.storage
  have hf := hs.chunkFacts hl
  have hidle := hs.idle_of_ne_done hl
  have hdone := hs.chunk_done hl
  obtain ⟨hc0, hc1, hc2, hs0, hs1, hs2⟩ := hs.sizes
  cases h with
  | hsC0 hh hn =>
    exact .of_idle { hst with sizes := ⟨List.length_take_of_le hn, hc1, hc2, hs0, hs1, hs2⟩ }
      (hidle (by simp [hh]))
  | hsS0 hh => exact .of_idle { hst.withBuffer .hsS0 with } (hidle (by simp [hh]))
  | hsS1 w r hh => exact .of_idle { hst.withBuffer (.hsS1 w r) with } (hidle (by simp [hh]))
  | hsC1 hh hn =>
    exact .of_idle { hst with sizes := ⟨hc0, List.length_take_of_le hn, hc2, hs0, hs1, hs2⟩ }
      (hidle (by simp [hh]))
  | hsS2 hh => exact .of_idle { hst.withBuffer .hsS2 with } (hidle (by simp [hh]))
  | hsC2 hh hn =>
    refine .of_idle (State.StorageInv.discardHandshake ?_) (hidle (by simp [hh]))
    exact { hst with sizes := ⟨hc0, hc1, List.length_take_of_le hn, hs0, hs1, hs2⟩ }
  | hsDone hh hc => exact .of_chunkFacts { hst with } (fun _ => hh) trivial
  | bhB0 hc =>
    rw [hc] at hf hdone
    exact .of_chunkFacts { hst with } (fun _ => hdone nofun) ⟨rfl, rfl⟩
  | bh1 hc hform =>
    rw [hc] at hf hdone
    exact .of_chunkFacts { hst with } (fun _ => hdone nofun)
      ⟨hf, csidOne_range (hf.2.symm.trans hform)⟩
  | bh2 hc hform =>
    rw [hc] at hf hdone
    exact .of_chunkFacts { hst with } (fun _ => hdone nofun) ⟨hf, csidTwo_range _⟩
  | bh3 hc hform =>
    rw [hc] at hf hdone
    exact .of_chunkFacts { hst with } (fun _ => hdone nofun) ⟨hf, csidThree_range _ _⟩
  | mh0 hc hfmt | mh1 hc hfmt | mh2 hc hfmt | mh3 hc hfmt =>
    rw [hc] at hf hdone
    refine .of_chunkFacts { hst with } (fun _ => hdone nofun) ⟨hf.1, hf.2, ?_⟩
    change headerOf s.bhFmt _
    rw [hfmt]
    exact ⟨rfl, rfl, rfl, rfl, rfl⟩
  | payloadLen hc hp hn =>
    rw [hc] at hf hdone
    exact .of_chunkFacts
      { hst with payload_max := (List.length_take_le _ _).trans s.payloadLength_le }
      (fun _ => hdone nofun) ⟨hf.1, hf.2.1, hf.2.2, List.length_take_of_le hn⟩
  | payloadNone hc hp =>
    rw [hc] at hf hdone
    exact .of_chunkFacts { hst with payload_max := Nat.zero_le _ } (fun _ => hdone nofun)
      ⟨hf.1, hf.2.1, hf.2.2, (State.payloadLength_of_absent hp).symm⟩
  | resolveDirect hc | resolveInherit w hc =>
    rw [hc] at hf hdone
    exact .of_chunkFacts { hst with } (fun _ => hdone nofun) hf
  | update hc he =>
    rw [hc] at hf hdone
    obtain ⟨hheader, hid, hflags, hpayload⟩ := hf
    exact .of_chunkFacts (hst.writeEntry _ _ hid he) (fun _ => hdone nofun)
      ⟨hheader, hid, hflags, hpayload, Memory.read_write_same _ _ _⟩
  | dispatch hc hk =>
    rw [hc] at hf hdone
    obtain ⟨hheader, hid, hflags, hpayload, hentry⟩ := hf
    exact .of_chunkFacts { hst with } (fun _ => hdone nofun)
      ⟨hheader, hid, hflags, hpayload, hentry, hk⟩
  | drop hc | ret hc =>
    rw [hc] at hdone
    exact .of_chunkFacts { hst with } (fun _ => hdone nofun) trivial
  | htxWrite | htxFlush => exact { hs with }

/-- R225: a failing operation has set its buffer at most. -/
theorem PartDone.storage {i : Instr} {s u : State} (h : PartDone i s u) (hs : s.StorageInv) :
    u.StorageInv := by
  cases h with
  | nothing => exact hs
  | partSent | written => exact { hs.withBuffer i with }

/-- R225, R226: taking an exception ends the connection and leaves the storage. -/
theorem State.StorageInv.raise_inv {u : State} (hu : u.StorageInv) {c : FaultCode} (op : Op)
    (hc : c ≠ .noFault) : (u.raise c op).Inv :=
  .of_ended hc { hu with cst_ids := fun h => absurd h hc, released_ended := fun _ => hc }

theorem ExecNext.inv {i : Instr} {s t : State} (h : ExecNext i s t) (hs : s.Inv) : t.Inv := by
  cases h with
  | waits => exact hs
  | answers e he => exact { hs with }
  | raises u c hl hu hc => exact (hu.storage hs.storage).raise_inv i.op hc
  | completes t hl ht => exact ht.inv hs hl

/-- R226, log 7: a released connection has a canonical register file, buffers of their sizes and a payload
within its bound. -/
theorem State.Inv.release {s : State} (h : s.Inv) (hc : s.fault.code ≠ .noFault) : s.release.Inv :=
  .of_ended hc
    { h.storage.discardHandshake with
      cst_wf := Memory.wf_ofCells _
      cst_ids := fun hl => absurd hl hc
      payload_max := List.length_take_le _ _
      released_ended := fun _ => hc }

/-- R251: a new connection has no chunk, an empty register file and buffers of their sizes. -/
theorem State.newConnection_inv (s : State) (rx : List Byte) : (s.newConnection rx).Inv :=
  .of_idle
    { cst_wf := rfl
      cst_ids := fun _ => nofun
      sizes := ⟨rfl, List.length_replicate, List.length_replicate, rfl, List.length_replicate,
        List.length_replicate⟩
      payload_max := Nat.zero_le _
      released_ended := nofun } rfl

theorem OutsideOnly.inv {s t : State} (h : OutsideOnly s t) (hs : s.Inv) : t.Inv := by
  rw [h]
  exact { hs with }

/-- Settles O45: of the five ways a step goes, what the outside does touches nothing the invariant speaks of,
and the other four keep it by the lemmas above. -/
theorem stepKeepsTheInvariant : Obligations.StepKeepsTheInvariant := by
  intro s t hs hstep
  cases step_stepNext hstep with
  | releases hc => exact hs.release hc
  | resets rx rest he => exact State.newConnection_inv _ rx
  | acts t h => exact h.inv hs
  | refuses u op h => exact { h.inv hs with }
  | runs i u v t hu hv ht => exact ht.inv (hv.inv (hu.inv hs))

end Sys2Proof.Machine
end

section
/-! SUPPORT. Registers that nothing reads (10_state.md R28 to R30; 92_eei_decisions.md D34): two states that
agree but for them take the same steps, and agree but for them after. -/

namespace Sys2Proof.Machine

/-! ### Agreement but for a group of registers -/

/-- The two groups of registers that nothing reads: the ghost counters; `c0_version` and the buffers other
than `c1`. -/
inductive Unread where
  | counters | buffers

/-- `s` with the registers of a group blanked out. -/
def Unread.clear : Unread → State → State
  | .counters, s => { s with rxPos := 0, txPos := 0 }
  | .buffers, s => { s with c0Version := 0, c0 := [], c2 := [], s0 := [], s1 := [], s2 := [] }

/-- `s` with the registers of a group taken from `t`. -/
def Unread.restore : Unread → State → State → State
  | .counters, t, s => { s with rxPos := t.rxPos, txPos := t.txPos }
  | .buffers, t, s =>
    { s with c0Version := t.c0Version, c0 := t.c0, c2 := t.c2, s0 := t.s0, s1 := t.s1, s2 := t.s2 }

/-- Two states agree but for a group of registers. -/
def Unread.Same (w : Unread) (s t : State) : Prop := w.clear s = w.clear t

/-- Two answers agree but for a group of registers of the next state. -/
def Unread.SameOut (w : Unread) (x y : Out) : Prop := mapNext w.clear x = mapNext w.clear y

/-- What `f` reads of a state lies outside both groups. -/
def ReadsNone {α : Type} (f : State → α) : Prop := ∀ (w : Unread) (s : State), f (w.clear s) = f s

/-- What `k` makes of a state's registers outside a group does not depend on the group. -/
def CarriesNone (k : State → State) : Prop :=
  ∀ (w : Unread) (s : State), w.clear (k (w.clear s)) = w.clear (k s)

namespace Unread
variable {w : Unread} {s t : State}

/-- States that agree but for a group read the same wherever the group is not read. -/
theorem Same.read {α : Type} (h : w.Same s t) (f : State → α)
    (hf : ReadsNone f := by intro w _; cases w <;> rfl) : f s = f t :=
  calc f s = f (w.clear s) := (hf w s).symm
    _ = f (w.clear t) := congrArg f h
    _ = f t := hf w t

/-- States that agree but for a group still do after an act that carries nothing out of it. -/
theorem Same.map (h : w.Same s t) (k : State → State)
    (hk : CarriesNone k := by intro w _; cases w <;> rfl) : w.Same (k s) (k t) :=
  calc w.clear (k s) = w.clear (k (w.clear s)) := (hk w s).symm
    _ = w.clear (k (w.clear t)) := congrArg (fun u => w.clear (k u)) h
    _ = w.clear (k t) := hk w t

theorem Same.eq_restore (h : w.Same s t) : s = w.restore s t :=
  calc s = w.restore s (w.clear s) := by cases w <;> rfl
    _ = w.restore s (w.clear t) := congrArg (w.restore s) h
    _ = w.restore s t := by cases w <;> rfl

theorem SameOut.next (h : w.Same s t) : w.SameOut (.next s) (.next t) :=
  congrArg Host.Outcome.next h

theorem SameOut.refl (x : Out) : w.SameOut x x := Eq.refl (mapNext w.clear x)

/-- Agreeing answers are both next states that agree, or the same stop. -/
theorem SameOut.cases {x y : Out} (h : w.SameOut x y) :
    (∃ s t, x = .next s ∧ y = .next t ∧ w.Same s t) ∨ (∃ r, x = .fault r ∧ y = .fault r) ∨
      (∃ r, x = .refused r ∧ y = .refused r) := by
  cases x <;> cases y <;> simp_all [Unread.SameOut, mapNext, Unread.Same]

theorem SameOut.exists_restore {x y : Out} (h : w.SameOut x y) :
    ∃ t, x = mapNext (w.restore t) y := by
  rcases h.cases with ⟨s, t, rfl, rfl, hst⟩ | ⟨r, rfl, rfl⟩ | ⟨r, rfl, rfl⟩
  · exact ⟨s, congrArg Host.Outcome.next hst.eq_restore⟩
  · exact ⟨State.reset, rfl⟩
  · exact ⟨State.reset, rfl⟩

/-! ### The shared operations -/

/-- Two choices on the same condition are related where their branches are. -/
theorem ite_rel {α : Type} {R : α → α → Prop} {p q : Prop} [Decidable p] [Decidable q]
    {x y x' y' : α} (hpq : p = q) (hx : R x y) (hx' : R x' y') :
    R (if p then x else x') (if q then y else y') := by
  by_cases hp : p
  · rwa [if_pos hp, if_pos (hpq ▸ hp)]
  · rwa [if_neg hp, if_neg (hpq ▸ hp)]

/-- Two answers of `RxRead` agree but for a group of registers. -/
inductive SameRx (w : Unread) : RxResult → RxResult → Prop
  | got {b c : List Byte} {s t : State} (hb : b = c) (h : w.Same s t) : SameRx w (.got b s) (.got c t)
  | ended : SameRx w .ended .ended
  | waits : SameRx w .waits .waits

/-- Two answers of `TxWrite` or `TxFlush` agree but for a group of registers. -/
inductive SameTx (w : Unread) : TxResult → TxResult → Prop
  | done {s t : State} (h : w.Same s t) : SameTx w (.done s) (.done t)
  | failed {s t : State} (h : w.Same s t) : SameTx w (.failed s) (.failed t)
  | waits : SameTx w .waits .waits

theorem Same.rxRead (h : w.Same s t) (n : Nat) : w.SameRx (s.rxRead n) (t.rxRead n) :=
  ite_rel rfl (.got rfl h)
    (ite_rel (h.read fun u => n ≤ u.rxAvail.length)
      (.got (h.read fun u => u.rxAvail.take n) (h.map (·.consumed n)))
      (ite_rel (h.read fun u => u.rxEnd = .stillOpen) .waits .ended))

theorem Same.txWrite (h : w.Same s t) (b : List Byte) : w.SameTx (s.txWrite b) (t.txWrite b) :=
  ite_rel rfl (.done h)
    (ite_rel (h.read fun u => u.txOk = true)
      (ite_rel (h.read fun u => u.txReady = true) (.done (h.map (·.wrote b))) .waits)
      (.failed (h.map (·.sendPart b))))

theorem Same.txFlush (h : w.Same s t) : w.SameTx s.txFlush t.txFlush :=
  ite_rel (h.read fun u => u.txFlushOk = true)
    (ite_rel (h.read fun u => u.txFlushReady = true) (.done (h.map (·.flushed))) .waits)
    (.failed h)

section
variable {s₀ t₀ : State} {op : Op} {b c : List Byte} {k : State → State}

theorem SameOut.reading {n m : Nat} {k : List Byte → State → State} (h : w.Same s t) (hn : n = m)
    (hk : ∀ b, CarriesNone (k b) := by intro _ w _; cases w <;> rfl) :
    w.SameOut (reading op n s k) (reading op m t k) := by
  subst hn
  have hx := h.rxRead n
  unfold Machine.reading
  generalize s.rxRead n = x, t.rxRead n = y at hx
  cases hx with
  | got hb h' =>
    subst hb
    exact .next (h'.map _ (hk _))
  | ended => exact .next (h.map (·.raise .ioError op))
  | waits => exact .next h

theorem SameOut.writing (h₀ : w.Same s₀ t₀) (h : w.Same s t)
    (hk : CarriesNone k := by intro w _; cases w <;> rfl) :
    w.SameOut (writing op b s₀ s k) (writing op b t₀ t k) := by
  have hx := h.txWrite b
  unfold Machine.writing
  generalize s.txWrite b = x, t.txWrite b = y at hx
  cases hx with
  | done h' => exact .next (h'.map k hk)
  | failed h' => exact .next (h'.map (·.raise .ioError op))
  | waits => exact .next h₀

theorem SameOut.flushing (h : w.Same s t) (hk : CarriesNone k := by intro w _; cases w <;> rfl) :
    w.SameOut (flushing op s k) (flushing op t k) := by
  have hx := h.txFlush
  unfold Machine.flushing
  generalize s.txFlush = x, t.txFlush = y at hx
  cases hx with
  | done h' => exact .next (h'.map k hk)
  | failed h' => exact .next (h'.map (·.raise .ioError op))
  | waits => exact .next h

theorem SameOut.writingFlush (h₀ : w.Same s₀ t₀) (h : w.Same s t) (hb : b = c)
    (hk : CarriesNone k := by intro w _; cases w <;> rfl) :
    w.SameOut (writingFlush op b s₀ s k) (writingFlush op c t₀ t k) := by
  subst hb
  have hx := h.txWrite b
  unfold Machine.writingFlush
  generalize s.txWrite b = x, t.txWrite b = y at hx
  cases hx with
  | @done u v h' =>
    have hy := h'.txFlush
    dsimp only
    generalize u.txFlush = x, v.txFlush = y at hy
    cases hy with
    | done h'' => exact .next (h''.map k hk)
    | failed h'' => exact .next (h''.map (·.raise .ioError op))
    | waits => exact .next h₀
  | failed h' => exact .next (h'.map (·.raise .ioError op))
  | waits => exact .next h₀

end

/-! ### Every operation -/

theorem Same.answer (h : w.Same s t) (op : Op) (r : Option (List Byte)) :
    w.SameOut (.next (s.answer op r)) (.next (t.answer op r)) := by
  cases r with
  | some bytes => exact .next (h.map (·.log (.encoded op bytes)))
  | none => exact .next (h.map (·.log (.refusedCall op)))

/-- R28, R30: what an operation does outside a group of unread registers does not depend on the group. -/
theorem Same.exec (h : w.Same s t) (i : Instr) : w.SameOut (exec i s) (exec i t) := by
  have he := h.read fun u => enabled i u = true
  cases i
  case encBh1 | encBh2 | encBh3 | encMh0 | encMh1 | encMh2 | encMh3 => exact h.answer _ _
  case htxWrite bytes =>
    exact ite_rel he (.writing h h) (.next (h.map (·.log (.refusedCall .htxWrite))))
  case htxFlush => exact ite_rel he (.flushing h) (.next (h.map (·.log (.refusedCall .htxFlush))))
  case ret =>
    exact ite_rel he (.next (h.map fun u => { u with ckState := .bh0 }))
      (.next (h.map (·.log (.refusedCall .ret))))
  all_goals refine ite_rel he ?_ (.refl _)
  case hsC0 | hsC1 | hsC2 | bhB0 | bh1 | bh2 | bh3 | mh0 | mh1 | mh2 | mh3 => exact .reading h rfl
  case payloadLen => exact .reading h (h.read State.payloadLength)
  case hsS0 => exact .writing h (h.map (·.withBuffer .hsS0))
  case hsS1 x r => exact .writingFlush h (h.map (·.withBuffer (.hsS1 x r))) rfl
  case hsS2 => exact .writingFlush h (h.map (·.withBuffer .hsS2)) (h.read State.s2Bytes)
  case hsDone => exact .next (h.map fun u => { u with ckState := .bh0 })
  case payloadNone => exact .next (h.map fun u => { u with payload := [], ckState := .resolve })
  case resolveDirect =>
    exact .next (h.map fun u => { u with resType := u.mh.type.getD 0, ckState := .update })
  case resolveInherit =>
    refine ite_rel (h.read fun u => u.entry < Config.cstEntries) ?_ (.refl _)
    rw [h.read fun u => u.cst.read u.entry]
    cases t.cst.read t.entry with
    | some v => exact .next (h.map fun u => { u with resType := v, ckState := .update })
    | none => exact .next (h.map (·.raise .protocolError .resolveInherit))
  case update =>
    exact ite_rel (h.read fun u => u.entry < Config.cstEntries)
      (.next (h.map fun u =>
        { u with cst := u.cst.write u.entry u.resType, ckState := .dispatch })) (.refl _)
  case dispatch =>
    exact .next (h.map fun u => { u.log (.deliver u.delivery) with ckState := .handler })
  case drop => exact .next (h.map fun u => { u.log (.drop u.resType) with ckState := .bh0 })

/-! ### Every step -/

theorem Same.turn (h : w.Same s t) : w.SameOut s.turn t.turn := by
  unfold State.turn
  rw [h.read State.hostQ]
  cases t.hostQ with
  | cons call rest =>
    exact ite_rel (h.read fun u => blocked call.toInstr u = true) (.next h)
      ((h.map fun u => { u with hostQ := rest }).exec _)
  | nil =>
    dsimp only
    rw [h.read fun u => u.fault.code, h.read State.fetch]
    cases t.fault.code with
    | ioError | protocolError => exact .refl _
    | noFault =>
      cases t.fetch with
      | ok i => exact h.exec i
      | reject r => exact .next h

theorem Same.expire (h : w.Same s t) : w.Same s.expire t.expire := by
  unfold State.expire
  rw [h.read State.nextOp]
  cases t.nextOp with
  | reject r => exact h
  | ok i =>
    refine ite_rel (h.read fun u => (u.ioDeadline.isSome && blocked i u) = true) ?_ h
    have hx := (h.map fun u => { u.primitiveFails i with hostQ := u.hostQ.tail }).exec i
    rcases hx.cases with ⟨u, v, hu, hv, huv⟩ | ⟨r, hu, hv⟩ | ⟨r, hu, hv⟩ <;> rw [hu, hv]
    · have hback := huv.map fun x =>
        { x with rxEnd := t.rxEnd, txOk := t.txOk, txFlushOk := t.txFlushOk }
      dsimp only
      rwa [h.read State.rxEnd, h.read State.txOk, h.read State.txFlushOk]
    · exact h
    · exact h

theorem Same.apply (h : w.Same s t) (e : EnvEvent) : w.Same (s.apply e) (t.apply e) := by
  have hopen := h.read fun u => u.rxEnd = .stillOpen
  cases e with
  | tick => exact h
  | rx bytes => exact ite_rel hopen (h.map fun u => { u with rxAvail := u.rxAvail ++ bytes }) h
  | rxClose => exact ite_rel hopen (h.map fun u => { u with rxEnd := .closed }) h
  | rxError kept =>
    exact ite_rel hopen (h.map fun u => { u with rxEnd := .failed, rxAvail := u.rxAvail.take kept }) h
  | transport ok flushOk ready flushReady =>
    exact h.map fun u =>
      { u with txOk := ok, txFlushOk := flushOk, txReady := ready, txFlushReady := flushReady }
  | deadline => exact h.expire
  | host call => exact h.map fun u => { u with hostQ := u.hostQ ++ [call] }
  | htx call =>
    exact ite_rel (h.read fun u => u.htxOpen = true)
      (h.map fun u => { u with hostQ := u.hostQ ++ [call] })
      (h.map (·.log (.refusedCall call.toInstr.op)))
  | rst rx => exact h.map (·.newConnection rx)

/-- R28, R30: what a step does outside a group of unread registers does not depend on the group. -/
theorem Same.step (h : w.Same s t) : w.SameOut (step s) (step t) := by
  refine ite_rel (h.read fun u => u.fault.code ≠ .noFault ∧ u.released = false)
    (.next (h.map (·.release))) ?_
  rw [h.read State.env]
  cases t.env with
  | nil => exact h.turn
  | cons e rest =>
    have hr := h.map fun u => { u with env := rest }
    cases e with
    | tick => exact hr.turn
    | _ => exact .next (hr.apply _)

end Unread

/-- Settles O55: a step from states that agree but for these registers leaves states that agree but for
them, and faults and refusals are the same. -/
theorem versionAndSentBuffersAreNeverRead : Obligations.VersionAndSentBuffersAreNeverRead := by
  intro s v a0 a2 b0 b1 b2
  have hs : Unread.buffers.Same
    { s with c0Version := v, c0 := a0, c2 := a2, s0 := b0, s1 := b1, s2 := b2 } s := rfl
  obtain ⟨t, ht⟩ := hs.step.exists_restore
  exact ⟨t.c0Version, t.c0, t.c2, t.s0, t.s1, t.s2, ht⟩

/-- Settles O56: a step from states that agree but for the ghost counters leaves states that agree but for
them, and faults and refusals are the same. -/
theorem ghostCountersAreNeverRead : Obligations.GhostCountersAreNeverRead := by
  intro s a b
  have hs : Unread.counters.Same { s with rxPos := a, txPos := b } s := rfl
  obtain ⟨t, ht⟩ := hs.step.exists_restore
  exact ⟨t.rxPos, t.txPos, ht⟩

end Sys2Proof.Machine
end

section
/-! SUPPORT. The byte positions of the handshake (20_memory.md R63, 40_handshake.md R121). -/

namespace Sys2Proof.Machine

namespace State.handshakePositions
variable {s t : State}

/-- On an ended connection nothing is said of the positions (R36). -/
theorem of_ended (hc : s.fault.code ≠ .noFault) : s.handshakePositions := fun hl => absurd hl hc

/-- Once a chunk is begun nothing is said of the positions. -/
theorem of_chunk (hc : s.ckState ≠ .idle) : s.handshakePositions := fun _ h => absurd h hc

/-- R63, R121: a handshake operation consumes and writes what lies between its `hs_state` and the next. -/
theorem advance {h : HsState} {rx tx : Nat} (hp : s.handshakePositions) (hs : s.hsState = h)
    (hf : t.fault = s.fault) (hc : t.ckState = s.ckState)
    (hrx : t.rxPos = s.rxPos + rx) (hrx' : handshakeRx t.hsState = handshakeRx h + rx)
    (htx : t.txPos = s.txPos + tx) (htx' : handshakeTx t.hsState = handshakeTx h + tx) :
    t.handshakePositions := by
  intro hl hidle
  obtain ⟨hr, hw⟩ := hp (hf ▸ hl) (hc ▸ hidle)
  rw [hs] at hr hw
  omega

end State.handshakePositions

/-- R121: each completed operation of the handshake takes the positions to those of the next `hs_state`; the
others leave `CK_IDLE` or find a chunk begun. -/
theorem Completes.handshakePositions {i : Instr} {s t : State} (h : Completes s i t) (hs : s.Inv)
    (hp : s.handshakePositions) : t.handshakePositions := by
  obtain ⟨_, hc1, _⟩ := hs.sizes
  cases h
  case hsC0 hh _ => exact hp.advance (rx := 1) (tx := 0) hh rfl rfl rfl rfl rfl rfl
  case hsS0 hh => exact hp.advance (rx := 0) (tx := 1) hh rfl rfl rfl rfl rfl rfl
  case hsS1 w r hh =>
    exact hp.advance (rx := 0) (tx := 1536) hh rfl rfl rfl rfl
      (congrArg (s.txPos + ·) (encodePacket_length w 0 r)) rfl
  case hsC1 hh _ => exact hp.advance (rx := 1536) (tx := 0) hh rfl rfl rfl rfl rfl rfl
  case hsS2 hh =>
    exact hp.advance (rx := 0) (tx := 1536) hh rfl rfl rfl rfl
      (congrArg (s.txPos + ·) (s.s2Bytes_length hc1)) rfl
  case hsC2 hh _ => exact hp.advance (rx := 1536) (tx := 0) hh rfl rfl rfl rfl rfl rfl
  case htxWrite hc _ | htxFlush hc =>
    exact .of_chunk (by simp [State.wrote, State.flushed, hc])
  all_goals exact .of_chunk nofun

theorem ExecNext.handshakePositions {i : Instr} {s t : State} (h : ExecNext i s t) (hs : s.Inv)
    (hp : s.handshakePositions) : t.handshakePositions := by
  cases h with
  | waits => exact hp
  | answers e he => exact hp
  | raises u c hl hu hc => exact .of_ended hc
  | completes t hl ht => exact ht.handshakePositions hs hp

theorem OutsideOnly.handshakePositions {s t : State} (h : OutsideOnly s t)
    (hp : s.handshakePositions) : t.handshakePositions := by
  rw [h]
  exact hp

/-- Settles O46: a new connection stands at the start of both streams, what the outside does moves no
position, and an operation moves them with `hs_state`. -/
theorem stepKeepsHandshakePositions : Obligations.StepKeepsHandshakePositions := by
  intro s t hs hp hstep
  cases step_stepNext hstep with
  | releases hc => exact .of_ended hc
  | resets rx rest he => exact fun _ _ => ⟨rfl, rfl⟩
  | acts t h => exact h.handshakePositions hp
  | refuses u op h => exact h.handshakePositions hp
  | runs i u v t hu hv ht =>
    exact ht.handshakePositions (hv.handshakePositions (hu.inv hs) (hu.handshakePositions hp))

end Sys2Proof.Machine
end

section
/-! SUPPORT. The operation the control state selects, one equation for each `ck_state` of a live connection
(30_encoding.md R80, R94; 40_handshake.md R110; 42_message_header.md R150), and what the transport's acts do
to RX (20_memory.md R51). -/

namespace Sys2Proof.Machine

/-! ### The selected operation -/

/-- On a live connection the control state and its data select, the fault code being `None`. -/
theorem State.fetch_of_live {s : State} {c : CkState} (hl : s.fault.code = .noFault)
    (hc : s.ckState = c) :
    s.fetch = select { s.selector with live := true, ck := c } (Config.drawTime s.conn)
      (drawRandom s.conn) := by
  rw [← hc, ← State.selector_live hl]
  rfl

section
variable {s : State} (hl : s.fault.code = .noFault)
include hl

theorem State.fetch_idle (hc : s.ckState = .idle) :
    s.fetch = .ok (selectHandshake (Config.drawTime s.conn) (drawRandom s.conn) s.hsState) :=
  State.fetch_of_live hl hc

theorem State.fetch_bh0 (hc : s.ckState = .bh0) : s.fetch = .ok .bhB0 := State.fetch_of_live hl hc

theorem State.fetch_bhx (hc : s.ckState = .bhx) : s.fetch = .ok (selectBhx s.bhForm) :=
  State.fetch_of_live hl hc

theorem State.fetch_mh (hc : s.ckState = .mh) : s.fetch = .ok (selectMh s.bhFmt) :=
  State.fetch_of_live hl hc

theorem State.fetch_payload (hc : s.ckState = .payload) :
    s.fetch = .ok (if s.mhLenP then .payloadLen else .payloadNone) := State.fetch_of_live hl hc

theorem State.fetch_resolve (hc : s.ckState = .resolve) :
    s.fetch = .ok (if s.mhTypeP then .resolveDirect else .resolveInherit) :=
  State.fetch_of_live hl hc

theorem State.fetch_update (hc : s.ckState = .update) : s.fetch = .ok .update :=
  State.fetch_of_live hl hc

theorem State.fetch_dispatch (hc : s.ckState = .dispatch) :
    s.fetch = .ok (if s.known then .dispatch else .drop) := State.fetch_of_live hl hc

end

/-- Settles O6: an operation of the chunk path is enabled in its own `ck_state`, where the data that selects
it is as its rule asks; one of the handshake before `Done`, where the invariant has `CK_IDLE` (R22). -/
theorem onlyTheSelectedOperationIsEnabled : Obligations.OnlyTheSelectedOperationIsEnabled := by
  intro s i hs ho he
  have hl := live_of_enabled ho he
  have hidle := hs.idle_of_ne_done hl
  cases i
  case encBh1 | encBh2 | encBh3 | encMh0 | encMh1 | encMh2 | encMh3 | htxWrite | htxFlush | ret =>
    cases ho
  all_goals
    simp only [enabled, Bool.and_eq_true, Bool.not_eq_true', decide_eq_true_eq] at he
  case hsC0 | hsS0 | hsS1 | hsC1 | hsS2 | hsC2 =>
    exact ⟨_, State.fetch_idle hl (hidle (by simp [he.2])), by rw [he.2]; rfl⟩
  case hsDone => exact ⟨_, State.fetch_idle hl he.2, by rw [he.1.2]; rfl⟩
  case bhB0 => exact ⟨_, State.fetch_bh0 hl he.2, rfl⟩
  case bh1 | bh2 | bh3 => exact ⟨_, State.fetch_bhx hl he.1.2, by rw [he.2]; rfl⟩
  case mh0 | mh1 | mh2 | mh3 => exact ⟨_, State.fetch_mh hl he.1.2, by rw [he.2]; rfl⟩
  case payloadLen | payloadNone => exact ⟨_, State.fetch_payload hl he.1.2, by rw [he.2]; rfl⟩
  case resolveDirect | resolveInherit =>
    exact ⟨_, State.fetch_resolve hl he.1.2, by rw [he.2]; rfl⟩
  case update => exact ⟨_, State.fetch_update hl he.2, rfl⟩
  case dispatch | drop => exact ⟨_, State.fetch_dispatch hl he.1.2, by rw [he.2]; rfl⟩

/-! ### The transport's acts on RX -/

/-- R10, R31: a scheduled act of the outside, and not the block's turn, is what a step does. -/
theorem step_env_act {s : State} {e : EnvEvent} {rest : List EnvEvent}
    (h : s.fault.code = .noFault ∨ s.released = true) (he : s.env = e :: rest) (ht : e ≠ .tick) :
    step s = .next (State.apply { s with env := rest } e) := by
  unfold step State.advance
  rw [if_neg (not_release_due h), he]
  cases e with
  | tick => exact absurd rfl ht
  | _ => rfl

/-- Settles O7: while RX is open each act does what it says, and after its end bytes are passed over. -/
theorem rxArrivesInOrderUntilItEnds : Obligations.RxArrivesInOrderUntilItEnds := by
  intro s rest hl
  refine ⟨fun bytes he ho => ?rx, fun he ho => ?close, fun kept he ho => ?error,
    fun bytes he ho => ?late⟩
  all_goals rw [step_env_act (.inl hl) he nofun]
  case late => exact congrArg _ (if_neg ho)
  all_goals exact congrArg _ (if_pos ho)

end Sys2Proof.Machine
end

section
/-! SUPPORT. How an operation uses the two streams, said once for every operation (20_memory.md R51, R52, R60,
R65): which of `RxRead`, `TxWrite` and `TxFlush` an enabled operation is made of, what each does where it
waits or fails, and what follows for the operation. -/

namespace Sys2Proof.Machine

/-! ### The primitives where they wait or fail -/

section
variable {s s₀ : State} {op : Op} {n : Nat} {b : List Byte} {k : State → State}

theorem State.txWrite_waits (h : s.txWaits b = true) : s.txWrite b = .waits := by
  simp only [State.txWaits, Bool.and_eq_true, Bool.not_eq_true'] at h
  simp [State.txWrite, h]

theorem State.txWrite_ready (hb : b ≠ []) (ho : s.txOk = true) (hr : s.txReady = true) :
    s.txWrite b = .done (s.wrote b) := by
  simp [State.txWrite, State.wrote, hb, ho, hr]

theorem State.txWrite_fails (hb : b ≠ []) (ho : s.txOk = false) :
    s.txWrite b = .failed (s.sendPart b) := by
  simp [State.txWrite, hb, ho]

theorem State.txFlush_waits (h : s.flushWaits = true) : s.txFlush = .waits := by
  simp only [State.flushWaits, Bool.and_eq_true, Bool.not_eq_true'] at h
  simp [State.txFlush, h]

theorem State.txFlush_fails (h : s.txFlushOk = false) : s.txFlush = .failed s := by
  simp [State.txFlush, h]

theorem reading_waits {k : List Byte → State → State} (h : s.rxWaits n = true) :
    reading op n s k = .next s := by
  rw [reading, s.rxRead_waits n h]

theorem reading_ended {k : List Byte → State → State} (hn : s.rxAvail.length < n)
    (he : s.rxEnd ≠ .stillOpen) : reading op n s k = .next (s.raise .ioError op) := by
  rw [reading, s.rxRead_ended n hn he]

theorem writing_waits (h : s.txWaits b = true) : writing op b s₀ s k = .next s₀ := by
  rw [writing, State.txWrite_waits h]

theorem writing_fails (hb : b ≠ []) (ho : s.txOk = false) :
    writing op b s₀ s k = .next ((s.sendPart b).raise .ioError op) := by
  rw [writing, State.txWrite_fails hb ho]

theorem writingFlush_waits (h : s.txWaits b = true) : writingFlush op b s₀ s k = .next s₀ := by
  rw [writingFlush, State.txWrite_waits h]

/-- Log 27: a flush that waits holds back the write before it. -/
theorem writingFlush_flush_waits (hb : b ≠ []) (ho : s.txOk = true) (h : s.flushWaits = true) :
    writingFlush op b s₀ s k = .next s₀ := by
  by_cases hr : s.txReady = true
  · have hf : (s.wrote b).txFlush = .waits := State.txFlush_waits h
    simp only [writingFlush, State.txWrite_ready hb ho hr, hf]
  · exact writingFlush_waits (by simp [State.txWaits, hb, ho, hr])

theorem writingFlush_fails (hb : b ≠ []) (ho : s.txOk = false) :
    writingFlush op b s₀ s k = .next ((s.sendPart b).raise .ioError op) := by
  rw [writingFlush, State.txWrite_fails hb ho]

/-- R227: a flush that fails leaves the write before it. -/
theorem writingFlush_flush_fails (hb : b ≠ []) (ho : s.txOk = true) (hr : s.txReady = true)
    (h : s.txFlushOk = false) :
    writingFlush op b s₀ s k = .next ((s.wrote b).raise .ioError op) := by
  have hf : (s.wrote b).txFlush = .failed (s.wrote b) := State.txFlush_fails h
  simp only [writingFlush, State.txWrite_ready hb ho hr, hf]

theorem flushing_waits (h : s.flushWaits = true) : flushing op s k = .next s := by
  rw [flushing, State.txFlush_waits h]

theorem flushing_fails (h : s.txFlushOk = false) :
    flushing op s k = .next (s.raise .ioError op) := by
  rw [flushing, State.txFlush_fails h]

end

/-! ### The streams an operation uses -/

/-- What an operation `i` does with the streams (R60): it reads; it writes; it writes and flushes; it only
flushes; or it uses neither. -/
inductive StreamUse (i : Instr) (s : State) : Prop
  | reads (k : List Byte → State → State) (hw : writeBytes i s = []) (hf : flushes i = false)
      (hx : exec i s = reading i.op (readLen i s) s k)
  | writes (k : State → State) (hr : readLen i s = 0) (hf : flushes i = false)
      (hx : exec i s = writing i.op (writeBytes i s) s (s.withBuffer i) k)
  | writesAndFlushes (k : State → State) (hr : readLen i s = 0) (hw : writeBytes i s ≠ [])
      (hx : exec i s = writingFlush i.op (writeBytes i s) s (s.withBuffer i) k)
  | onlyFlushes (k : State → State) (hr : readLen i s = 0) (hw : writeBytes i s = [])
      (hx : exec i s = flushing i.op s k)
  | neither (hr : readLen i s = 0) (hw : writeBytes i s = []) (hf : flushes i = false)

/-- R60, R238: the streams that each operation's own meaning uses once it is enabled. -/
theorem streamUse {i : Instr} {s : State} (h : enabled i s = true) : StreamUse i s := by
  cases i
  case hsC0 | hsC1 | hsC2 | bhB0 | bh1 | bh2 | bh3 | mh0 | mh1 | mh2 | mh3 | payloadLen =>
    exact .reads _ rfl rfl (if_pos h)
  case hsS0 | htxWrite => exact .writes _ rfl rfl (if_pos h)
  case hsS1 => exact .writesAndFlushes _ rfl (encodePacket_ne_nil _ _ _) (if_pos h)
  case hsS2 => exact .writesAndFlushes _ rfl s.s2Bytes_ne_nil (if_pos h)
  case htxFlush => exact .onlyFlushes _ rfl rfl (if_pos h)
  all_goals exact .neither rfl rfl rfl

/-- R61: only an operation of the block reads. -/
theorem own_of_readLen_ne_zero {i : Instr} {s : State} (h : readLen i s ≠ 0) : i.own = true := by
  cases i
  case encBh1 | encBh2 | encBh3 | encMh0 | encMh1 | encMh2 | encMh3 | htxWrite | htxFlush | ret =>
    exact absurd rfl h
  all_goals rfl

@[simp] theorem State.withBuffer_txOk (s : State) (i : Instr) : (s.withBuffer i).txOk = s.txOk := by
  rw [s.withBuffer_eq i]

@[simp] theorem State.withBuffer_txReady (s : State) (i : Instr) :
    (s.withBuffer i).txReady = s.txReady := by
  rw [s.withBuffer_eq i]

@[simp] theorem State.withBuffer_txWaits (s : State) (i : Instr) (b : List Byte) :
    (s.withBuffer i).txWaits b = s.txWaits b := by
  simp [State.txWaits]

@[simp] theorem State.withBuffer_flushWaits (s : State) (i : Instr) :
    (s.withBuffer i).flushWaits = s.flushWaits := by
  rw [s.withBuffer_eq i]
  rfl

theorem State.txWaits_nil (s : State) : s.txWaits [] = false := rfl

theorem State.rxWaits_zero (s : State) : s.rxWaits 0 = false := rfl

/-- Settles O37: an operation that waits does so in one of its own primitives, each of which then leaves the
state as it was before the operation. -/
theorem waitingChangesNothing : Obligations.WaitingChangesNothing := by
  intro i s h
  obtain ⟨he, hb⟩ := blocked_cases h
  cases streamUse he with
  | reads k hw hf hx =>
    have hr : s.rxWaits (readLen i s) = true := by simpa [hw, hf, State.txWaits_nil] using hb
    exact hx.trans (reading_waits hr)
  | writes k hr hf hx =>
    have hw : s.txWaits (writeBytes i s) = true := by simpa [hr, hf, State.rxWaits_zero] using hb
    exact hx.trans (writing_waits (by simpa using hw))
  | writesAndFlushes k hr hw hx =>
    rw [hr, State.rxWaits_zero] at hb
    rcases hb with hb | hb | ⟨_, ho, hb⟩
    · cases hb
    · exact hx.trans (writingFlush_waits (by simpa using hb))
    · exact hx.trans (writingFlush_flush_waits hw (by simpa [hw] using ho) (by simpa using hb))
  | onlyFlushes k hr hw hx =>
    have hf : flushes i = true ∧ s.flushWaits = true := by
      simpa [hr, hw, State.rxWaits_zero, State.txWaits_nil] using hb
    exact hx.trans (flushing_waits hf.2)
  | neither hr hw hf => simp [hr, hw, hf, State.rxWaits_zero, State.txWaits_nil] at hb

/-! ### Short reads -/

/-- R51 (c): an enabled operation on an RX that has ended too soon raises IoError. -/
theorem exec_short_read {i : Instr} {s : State} (h : enabled i s = true)
    (hn : s.rxAvail.length < readLen i s) (he : s.rxEnd ≠ .stillOpen) :
    exec i s = .next (s.raise .ioError i.op) := by
  cases streamUse h with
  | reads k hw hf hx => exact hx.trans (reading_ended hn he)
  | writes _ hr | writesAndFlushes _ hr | onlyFlushes _ hr | neither hr => omega

theorem Instr.op_eq_bhB0_iff {i : Instr} : i.op = .bhB0 ↔ i = .bhB0 := by
  cases i <;> simp [Instr.op]

/-- R224: the end of RX is orderly for `BH.B0` alone, on a closed and empty RX. -/
theorem State.orderlyEnd_op (s : State) (i : Instr) :
    s.orderlyEnd i.op = decide (i = .bhB0 ∧ s.rxEnd = .closed ∧ s.rxAvail = []) := by
  rw [Bool.eq_iff_iff]
  simp [State.orderlyEnd, Instr.op_eq_bhB0_iff, and_assoc]

/-- Settles O38: such an operation is a reading one, and its exception changes the record alone. -/
theorem shortReadRaisesIoError : Obligations.ShortReadRaisesIoError := by
  intro i s h hn he
  rw [exec_short_read h hn he, State.raise, State.orderlyEnd_op]
  rfl

/-! ### Failed writes and flushes -/

/-- R52, V5: of a failed write some part from its front is recorded. -/
theorem State.sendPart_eq_log (s : State) (b : List Byte) :
    ∃ part, part <+: b ∧ s.sendPart b = s.log (.txPart part) :=
  ⟨_, List.take_prefix _ _, rfl⟩

/-- R52, R225: an enabled operation whose write fails has set its buffer and sent some part of its bytes. -/
theorem exec_failed_write {i : Instr} {s : State} (h : enabled i s = true)
    (hb : writeBytes i s ≠ []) (ho : s.txOk = false) :
    ∃ part, part <+: writeBytes i s ∧
      exec i s = .next (((s.withBuffer i).log (.txPart part)).raise .ioError i.op) := by
  obtain ⟨part, hp, hlog⟩ := (s.withBuffer i).sendPart_eq_log (writeBytes i s)
  refine ⟨part, hp, ?_⟩
  rw [← hlog]
  rw [← s.withBuffer_txOk i] at ho
  cases streamUse h with
  | reads k hw => exact absurd hw hb
  | writes k hr hf hx => exact hx.trans (writing_fails hb ho)
  | writesAndFlushes k hr hw hx => exact hx.trans (writingFlush_fails hb ho)
  | onlyFlushes k hr hw => exact absurd hw hb
  | neither hr hw => exact absurd hw hb

/-- Settles O39: each of the four writers sends something, so each fails with the transport. -/
theorem failedWriteRaisesIoError : Obligations.FailedWriteRaisesIoError := by
  intro s t r bytes hl ho
  refine ⟨fun hs => ?s0, fun hs => ?s1, fun hs => ?s2, fun hc hb => ?write⟩
  case s0 =>
    have he : enabled .hsS0 s = true := by simp [enabled, State.live, hl, hs]
    rw [← hs]
    exact exec_failed_write he (List.cons_ne_nil _ _) ho
  case s1 =>
    have he : enabled (.hsS1 t r) s = true := by simp [enabled, State.live, hl, hs]
    rw [← hs]
    exact exec_failed_write he (encodePacket_ne_nil _ _ _) ho
  case s2 =>
    have he : enabled .hsS2 s = true := by simp [enabled, State.live, hl, hs]
    rw [← hs]
    exact exec_failed_write he s.s2Bytes_ne_nil ho
  case write =>
    have he : enabled (.htxWrite bytes) s = true := by simp [enabled, State.live, hl, hc]
    rw [← hc]
    exact exec_failed_write he hb ho

/-- R65, R227: an enabled operation whose flush after a write fails has made the write. -/
theorem exec_failed_flush {i : Instr} {s : State} (h : enabled i s = true) (hf : flushes i = true)
    (hb : writeBytes i s ≠ []) (ho : s.txOk = true) (hr : s.txReady = true)
    (hn : s.txFlushOk = false) :
    exec i s = .next (((s.withBuffer i).wrote (writeBytes i s)).raise .ioError i.op) := by
  have hn : (s.withBuffer i).txFlushOk = false := by rwa [s.withBuffer_eq i]
  cases streamUse h with
  | reads k _ hf' | writes k _ hf' | neither _ _ hf' => exact absurd (hf.symm.trans hf') nofun
  | writesAndFlushes k _ hw hx =>
    exact hx.trans (writingFlush_flush_fails hw (by simpa using ho) (by simpa using hr) hn)
  | onlyFlushes k _ hw => exact absurd hw hb

/-- Settles O40: the two handshake operations that flush write before it, `HTX.FLUSH` does not. -/
theorem failedFlushRaisesIoError : Obligations.FailedFlushRaisesIoError := by
  intro s t r hl hf
  refine ⟨fun hs ho hr => ?s1, fun hs ho hr => ?s2, fun hc => ?flush⟩
  case s1 =>
    have he : enabled (.hsS1 t r) s = true := by simp [enabled, State.live, hl, hs]
    have hlen : (encodeUnit (.s1 t r)).length = 1536 := encodePacket_length t 0 r
    rw [← hs, ← hlen]
    exact exec_failed_flush he rfl (encodePacket_ne_nil _ _ _) ho hr hf
  case s2 =>
    have he : enabled .hsS2 s = true := by simp [enabled, State.live, hl, hs]
    rw [← hs]
    exact exec_failed_flush he rfl s.s2Bytes_ne_nil ho hr hf
  case flush =>
    have he : enabled .htxFlush s = true := by simp [enabled, State.live, hl, hc]
    rw [← hc]
    exact (if_pos he).trans (flushing_fails hf)

/-! ### What is consumed -/

/-- R51, R61: an operation that runs to its end has consumed the bytes it reads, from the front of RX. -/
theorem Completes.consumes {i : Instr} {s t : State} (h : Completes s i t) :
    t.rxPos = s.rxPos + readLen i s ∧ t.rxAvail = s.rxAvail.drop (readLen i s) := by
  cases h <;> exact ⟨rfl, rfl⟩

/-- R225: what an operation has done when it raises is on TX and in its buffer alone. -/
theorem PartDone.rx_eq {i : Instr} {s u : State} (h : PartDone i s u) :
    u.rxPos = s.rxPos ∧ u.rxAvail = s.rxAvail := by
  cases h with
  | nothing => exact ⟨rfl, rfl⟩
  | partSent bytes | written bytes =>
    rw [s.withBuffer_eq i]
    exact ⟨rfl, rfl⟩

/-- R51 (c), (d): an operation that answers although RX has too few bytes waits or raises IoError. -/
theorem exec_next_of_short {i : Instr} {s t : State} (h : exec i s = .next t)
    (hn : s.rxAvail.length < readLen i s) : t = s ∨ t = s.raise .ioError i.op := by
  have he : enabled i s = true := by
    by_contra he
    rw [exec_of_not_enabled (own_of_readLen_ne_zero (Nat.ne_zero_of_lt hn)) (by simpa using he)] at h
    cases h
  cases streamUse he with
  | reads k hw hf hx =>
    rcases reading_next (hx.symm.trans h) with rfl | rfl | ⟨hle, _⟩
    · exact .inl rfl
    · exact .inr rfl
    · omega
  | writes _ hr | writesAndFlushes _ hr | onlyFlushes _ hr | neither hr => omega

/-- Settles O52: with too few bytes on RX nothing is consumed; with enough, an operation that runs to its end
consumes its bytes and one that waits, raises or is answered none. -/
theorem execConsumesExactlyItsBytes : Obligations.ExecConsumesExactlyItsBytes := by
  intro i s t h
  rcases Nat.lt_or_ge s.rxAvail.length (readLen i s) with hn | hn
  · rcases exec_next_of_short h hn with rfl | rfl <;> exact .inl ⟨rfl, rfl⟩
  · cases exec_next h with
    | waits | answers => exact .inl ⟨rfl, rfl⟩
    | raises u c hl hu => exact .inl hu.rx_eq
    | completes t hl ht => exact .inr ⟨hn, ht.consumes⟩

end Sys2Proof.Machine
end

section
/-! SUPPORT. What a step of a live connection runs: the one operation `nextOp` names, or none (20_memory.md R66,
60_exceptions.md R237); and what that leaves in a handler window (45_session.md R206). -/

namespace Sys2Proof.Machine

/-- `StepNext` with its operation named, for a step that is no reset and no release: it runs no operation, the
outside acting or its call being refused at the port (R7, R31); or it runs the operation `nextOp` names, on a
transport and with a queue and a schedule as the outside leaves them (R66, R237). -/
inductive StepRuns (s : State) : State → Prop
  | acts (t : State) (h : OutsideOnly s t) : StepRuns s t
  | refuses (u : State) (op : Op) (h : OutsideOnly s u) : StepRuns s (u.log (.refusedCall op))
  | runs (i : Instr) (u v t : State) (hi : s.nextOp = .ok i) (hu : OutsideOnly s u)
      (hv : ExecNext i u v) (ht : OutsideOnly v t) : StepRuns s t

theorem State.nextOp_of_call {s : State} {call : HostCall} {rest : List HostCall}
    (h : s.hostQ = call :: rest) : s.nextOp = .ok call.toInstr := by
  rw [State.nextOp, h]

theorem State.nextOp_of_nil {s : State} (h : s.hostQ = []) : s.nextOp = s.fetch := by
  rw [State.nextOp, h]

/-- The block's turn runs the operation `nextOp` names, whatever schedule is left (R66). -/
theorem StepRuns.of_turn {s t : State} {env : List EnvEvent}
    (h : State.turn { s with env := env } = .next t) : StepRuns s t := by
  rcases State.turn_next h with rfl | ⟨call, rest, hq, _, hx⟩ | ⟨hq, _, i, hf, hx⟩
  · exact .acts _ rfl
  · exact .runs _ { s with env := env, hostQ := rest } t t (State.nextOp_of_call hq) rfl
      (exec_next hx) rfl
  · exact .runs i { s with env := env } t t ((State.nextOp_of_nil hq).trans hf) rfl (exec_next hx) rfl

/-- An act of the outside but a reset, whatever schedule is left: a deadline alone runs an operation, the one
`nextOp` names (R31, R237). -/
theorem StepRuns.of_apply {s : State} {e : EnvEvent} {rest : List EnvEvent}
    (he : ∀ rx, e ≠ .rst rx) : StepRuns s (State.apply { s with env := rest } e) := by
  cases e with
  | tick | transport | host => exact .acts _ rfl
  | rx | rxClose | rxError =>
    dsimp only [State.apply]
    split <;> exact .acts _ rfl
  | deadline =>
    rcases State.expire_cases { s with env := rest } with hx | ⟨i, t, hi, _, _, hx, ht⟩
    · exact .acts _ (by rw [State.apply, hx]; rfl)
    · rw [State.apply, ht]
      exact .runs i _ t _ hi (by rfl) (exec_next hx) rfl
  | htx call =>
    dsimp only [State.apply]
    split
    · exact .acts _ rfl
    · exact .refuses { s with env := rest } call.toInstr.op rfl
  | rst rx => exact absurd rfl (he rx)

/-- Every step of a live connection that is no reset goes one of these ways (R11). -/
theorem step_stepRuns {s t : State} (hl : s.fault.code = .noFault) (hr : s.noReset)
    (h : step s = .next t) : StepRuns s t := by
  rcases step_next h with ⟨hc, _⟩ | ⟨_, ⟨e, rest, he, rfl⟩ | ⟨env, ht⟩⟩
  · exact absurd hl hc
  · exact .of_apply fun rx hrx => hr rx rest (hrx ▸ he)
  · exact .of_turn ht

/-! ### The handler window -/

/-- R208: a host call is no operation of the block's own. -/
theorem own_toInstr (call : HostCall) : call.toInstr.own = false := by
  cases call <;> rfl

/-- R66 (e), R206: in a handler window only a host call can run. -/
theorem State.own_of_nextOp_handler {s : State} {i : Instr} (hl : s.fault.code = .noFault)
    (hc : s.ckState = .handler) (h : s.nextOp = .ok i) : i.own = false := by
  cases hq : s.hostQ with
  | cons call rest =>
    rw [State.nextOp_of_call hq] at h
    cases h
    exact own_toInstr call
  | nil =>
    rw [State.nextOp_of_nil hq, (State.fetch_reject_iff hl).mpr ⟨hc, rfl⟩] at h
    cases h

/-- `t` has consumed what `s` has, and its chunk registers and register file are those of `s`. -/
def State.SameChunk (s t : State) : Prop :=
  t.rxPos = s.rxPos ∧ t.bhB0 = s.bhB0 ∧ t.chunk = s.chunk ∧ t.payload = s.payload ∧
    t.resType = s.resType ∧ t.cst = s.cst

theorem State.SameChunk.trans {s t u : State} (h : s.SameChunk t) (h' : t.SameChunk u) :
    s.SameChunk u := by
  unfold State.SameChunk at *
  simp only [h', h, and_self]

theorem OutsideOnly.sameChunk {s t : State} (h : OutsideOnly s t) : s.SameChunk t := by
  rw [h]
  exact ⟨rfl, rfl, rfl, rfl, rfl, rfl⟩

theorem PartDone.sameChunk {i : Instr} {s u : State} (h : PartDone i s u) : s.SameChunk u := by
  cases h with
  | nothing => exact ⟨rfl, rfl, rfl, rfl, rfl, rfl⟩
  | partSent bytes | written bytes =>
    rw [s.withBuffer_eq i]
    exact ⟨rfl, rfl, rfl, rfl, rfl, rfl⟩

/-- R203 to R206, R208: a host call reads nothing and leaves the chunk. -/
theorem ExecNext.sameChunk {i : Instr} {s t : State} (h : ExecNext i s t) (ho : i.own = false) :
    s.SameChunk t := by
  cases h with
  | waits | answers => exact ⟨rfl, rfl, rfl, rfl, rfl, rfl⟩
  | raises u c hl hu => exact hu.sameChunk
  | completes t hl ht =>
    cases ht
    case htxWrite | htxFlush | ret => exact ⟨rfl, rfl, rfl, rfl, rfl, rfl⟩
    all_goals cases ho

/-- Settles O54: in the window a step runs a host call at most, and neither that nor what the outside does
touches the chunk. -/
theorem handlerWindowReadsNothing : Obligations.HandlerWindowReadsNothing := by
  intro s t hl hc hr hstep
  change s.SameChunk t
  cases step_stepRuns hl hr hstep with
  | acts t h => exact h.sameChunk
  | refuses u op h => exact h.sameChunk
  | runs i u v t hi hu hv ht =>
    exact hu.sameChunk.trans ((hv.sameChunk (State.own_of_nextOp_handler hl hc hi)).trans ht.sameChunk)

end Sys2Proof.Machine
end

section
/-! SUPPORT. Wire units and encoder calls are read back from their bytes (30_encoding.md R80 to R91, R95):
the fields of a basic header's bytes, of a message header's and of a packet's, whatever follows them. -/

namespace Sys2Proof

open Machine (randomOf_toList encodePacket_length)

/-! ### Basic headers (R81, R82) -/

theorem fmtOf_bhByte0 (fmt low : Nat) (hf : fmt ≤ 3) (hl : low ≤ 63) :
    fmtOf (bhByte0 fmt low) = BitVec.ofNat 2 fmt := by
  have h : (BitVec.ofNat 8 (fmt * 64 + low)).toNat / 64 = fmt := by
    rw [BitVec.toNat_ofNat]; omega
  rw [bhByte0_eq fmt low hl, fmtOf_eq, h]

theorem csidOne_bhByte0 (fmt low : Nat) (hl : low ≤ 63) :
    (csidOne (bhByte0 fmt low)).toNat = low := by
  rw [bhByte0_eq fmt low hl, csidOne, selOf_toNat, BitVec.toNat_ofNat, BitVec.toNat_ofNat]
  omega

theorem csidTwo_ofNat (csid : Nat) (hlo : 64 ≤ csid) (hhi : csid ≤ 319) :
    (csidTwo (BitVec.ofNat 8 (csid - 64))).toNat = csid := by
  rw [csidTwo, BitVec.toNat_ofNat, BitVec.toNat_ofNat]
  omega

theorem csidThree_ofNat (csid : Nat) (hlo : 64 ≤ csid) (hhi : csid ≤ 65599) :
    (csidThree (BitVec.ofNat 8 ((csid - 64) % 256)) (BitVec.ofNat 8 ((csid - 64) / 256))).toNat
      = csid := by
  rw [csidThree_toNat, BitVec.toNat_ofNat, BitVec.toNat_ofNat]
  omega

/-- `decodeBh` on a first byte of the 1-byte form. -/
theorem decodeBh_one {b0 : Byte} (h : formOf b0 = .one) (rest : List Byte) :
    decodeBh (b0 :: rest) = .ok (.bh .one (fmtOf b0) (csidOne b0).toNat, rest) := by
  simp only [decodeBh, h]

/-- `decodeBh` on a first byte of the 2-byte form. -/
theorem decodeBh_two {b0 : Byte} (h : formOf b0 = .two) (b1 : Byte) (rest : List Byte) :
    decodeBh (b0 :: b1 :: rest) = .ok (.bh .two (fmtOf b0) (csidTwo b1).toNat, rest) := by
  simp only [decodeBh, h]

/-- `decodeBh` on a first byte of the 3-byte form. -/
theorem decodeBh_three {b0 : Byte} (h : formOf b0 = .three) (b1 b2 : Byte) (rest : List Byte) :
    decodeBh (b0 :: b1 :: b2 :: rest) =
      .ok (.bh .three (fmtOf b0) (csidThree b1 b2).toNat, rest) := by
  simp only [decodeBh, h]

/-- A basic header of any form is read back (R82). -/
theorem decodeBh_encodeUnit (form : BhForm) (fmt : Fmt) (csid : Nat) (rest : List Byte)
    (h : (WireUnit.bh form fmt csid).wf = true) :
    decodeBh (encodeUnit (.bh form fmt csid) ++ rest) = .ok (.bh form fmt csid, rest) := by
  have hfmt : fmt.toNat ≤ 3 := Nat.le_of_lt_succ fmt.isLt
  cases form
  all_goals
    simp only [WireUnit.wf, Bool.and_eq_true, decide_eq_true_eq] at h
    obtain ⟨hlo, hhi⟩ := h
  case one =>
    have hform : formOf (bhByte0 fmt.toNat csid) = .one := by
      rw [formOf_bhByte0 _ _ hhi, if_neg (by omega), if_neg (by omega)]
    have hok := (encBh1Ok_iff fmt.toNat csid).mpr ⟨hfmt, hlo, hhi⟩
    rw [encodeUnit, encodeBh1, if_pos hok]
    refine (decodeBh_one hform rest).trans ?_
    rw [fmtOf_bhByte0 _ _ hfmt hhi, csidOne_bhByte0 _ _ hhi, BitVec.ofNat_toNat, BitVec.setWidth_eq]
  case two =>
    have hform : formOf (bhByte0 fmt.toNat 0) = .two := formOf_bhByte0 _ _ (by decide)
    have hok := (encBh2Ok_iff fmt.toNat csid).mpr ⟨hfmt, hlo, hhi⟩
    rw [encodeUnit, encodeBh2, if_pos hok]
    refine (decodeBh_two hform _ rest).trans ?_
    rw [fmtOf_bhByte0 _ _ hfmt (by decide), csidTwo_ofNat _ hlo hhi, BitVec.ofNat_toNat,
      BitVec.setWidth_eq]
  case three =>
    have hform : formOf (bhByte0 fmt.toNat 1) = .three := formOf_bhByte0 _ _ (by decide)
    have hok := (encBh3Ok_iff fmt.toNat csid).mpr ⟨hfmt, hlo, hhi⟩
    rw [encodeUnit, encodeBh3, if_pos hok]
    refine (decodeBh_three hform _ _ rest).trans ?_
    rw [fmtOf_bhByte0 _ _ hfmt (by decide), csidThree_ofNat _ hlo hhi, BitVec.ofNat_toNat,
      BitVec.setWidth_eq]

/-! ### Message headers (R83 to R86) and packets (R63) -/

theorem be24_toBe24_toNat (v : Word24) (rest : List Byte) : be24 (toBe24 v.toNat ++ rest) = v := by
  rw [be24_toBe24 _ v.isLt, BitVec.ofNat_toNat, BitVec.setWidth_eq]

theorem be32_toBe32_toNat (v : Word32) (rest : List Byte) : be32 (toBe32 v.toNat ++ rest) = v := by
  rw [be32_toBe32 _ v.isLt, BitVec.ofNat_toNat, BitVec.setWidth_eq]

theorem le32_toLe32_toNat (v : Word32) (rest : List Byte) : le32 (toLe32 v.toNat ++ rest) = v := by
  rw [le32_toLe32 _ v.isLt, BitVec.ofNat_toNat, BitVec.setWidth_eq]

theorem decodeMh_encodeMh0 (ts len : Word24) (type : Byte) (msid : Word32) (rest : List Byte) :
    decodeMh 0 (encodeUnit (.mh0 ts len type msid) ++ rest) = .ok (.mh0 ts len type msid, rest) := by
  have hts : be24 (encodeUnit (.mh0 ts len type msid) ++ rest) = ts := be24_toBe24_toNat ts _
  have hlen : be24 ((encodeUnit (.mh0 ts len type msid) ++ rest).drop 3) = len :=
    be24_toBe24_toNat len _
  have hmsid : le32 ((encodeUnit (.mh0 ts len type msid) ++ rest).drop 7) = msid :=
    le32_toLe32_toNat msid _
  unfold decodeMh
  rw [if_neg (by simp [encodeUnit, toBe24, toLe32, mhSize]), if_pos rfl, hts, hlen, hmsid]
  rfl

theorem decodeMh_encodeMh1 (tsd len : Word24) (type : Byte) (rest : List Byte) :
    decodeMh 1 (encodeUnit (.mh1 tsd len type) ++ rest) = .ok (.mh1 tsd len type, rest) := by
  have htsd : be24 (encodeUnit (.mh1 tsd len type) ++ rest) = tsd := be24_toBe24_toNat tsd _
  have hlen : be24 ((encodeUnit (.mh1 tsd len type) ++ rest).drop 3) = len :=
    be24_toBe24_toNat len _
  unfold decodeMh
  rw [if_neg (by simp [encodeUnit, toBe24, mhSize]), if_neg nofun, if_pos rfl, htsd, hlen]
  rfl

theorem decodeMh_encodeMh2 (tsd : Word24) (rest : List Byte) :
    decodeMh 2 (encodeUnit (.mh2 tsd) ++ rest) = .ok (.mh2 tsd, rest) := by
  have htsd : be24 (encodeUnit (.mh2 tsd) ++ rest) = tsd := be24_toBe24_toNat tsd _
  unfold decodeMh
  rw [if_neg (by simp [encodeUnit, toBe24, mhSize]), if_neg nofun, if_neg nofun, if_pos rfl, htsd]
  rfl

theorem decodeMh_encodeMh3 (rest : List Byte) : decodeMh 3 rest = .ok (.mh3, rest) := rfl

theorem decodePacket_encodePacket (time second : Word32) (random : RandomBlock) (rest : List Byte) :
    decodePacket (encodePacket time second random ++ rest) = .ok (time, second, random) := by
  have htime : be32 (encodePacket time second random ++ rest) = time := by
    simp only [encodePacket, List.append_assoc, be32_toBe32_toNat]
  have hsecond : be32 ((encodePacket time second random ++ rest).drop 4) = second := by
    simp only [encodePacket, List.append_assoc]
    exact be32_toBe32_toNat second _
  have hrandom : randomOf ((encodePacket time second random ++ rest).drop 8) = random := by
    simp only [encodePacket, List.append_assoc]
    exact randomOf_toList random rest
  unfold decodePacket
  rw [if_neg (by simp), htime, hsecond, hrandom]

theorem drop_encodePacket (time second : Word32) (random : RandomBlock) (rest : List Byte) :
    (encodePacket time second random ++ rest).drop 1536 = rest :=
  List.drop_left' (encodePacket_length time second random)

/-! ### Every unit -/

/-- Settles O11: each unit's fields are read back from their places, and what is left is what followed. -/
theorem wireUnitsReadBack : Obligations.WireUnitsReadBack := by
  intro u rest h
  cases u with
  | c0 v => rfl
  | s0 => rfl
  | c1 time zero random | c2 time time2 random | s1 time random | s2 time random =>
    simp only [WireUnit.kind, encodeUnit, decodeUnit, decodePacket_encodePacket, drop_encodePacket,
      if_true]
  | bh form fmt csid => exact decodeBh_encodeUnit form fmt csid rest h
  | mh0 ts len type msid => exact decodeMh_encodeMh0 ts len type msid rest
  | mh1 tsd len type => exact decodeMh_encodeMh1 tsd len type rest
  | mh2 tsd => exact decodeMh_encodeMh2 tsd rest
  | mh3 => exact decodeMh_encodeMh3 rest
  | payload bytes =>
    have hlen : ¬ (bytes ++ rest).length < bytes.length := by simp
    simp only [WireUnit.kind, encodeUnit, decodeUnit, hlen, if_false, List.take_left, List.drop_left]

/-! ### Every operation -/

/-- An encoder call produces its header unit, and its site reads such a unit (R138 to R140, R156 to R159). -/
theorem encode_of_encCallOf {u : WireUnit} {i : Instr} (hi : encCallOf u = .ok i) :
    encode i = encodeUnit u ∧ ∀ s, decode i.site s = decodeCall (decodeUnit u.kind s) := by
  cases u with
  | bh form fmt csid => cases form <;> cases hi <;> exact ⟨rfl, fun _ => rfl⟩
  | mh0 ts len type msid =>
    cases hi
    have hok := (encMh0Ok_iff _ _ _ _).mpr ⟨ts.isLt, len.isLt, type.isLt, msid.isLt⟩
    refine ⟨?_, fun _ => rfl⟩
    rw [encode, encodeMh0, if_pos hok, BitVec.ofNat_toNat, BitVec.setWidth_eq]
    rfl
  | mh1 tsd len type =>
    cases hi
    have hok := (encMh1Ok_iff _ _ _).mpr ⟨tsd.isLt, len.isLt, type.isLt⟩
    refine ⟨?_, fun _ => rfl⟩
    rw [encode, encodeMh1, if_pos hok, BitVec.ofNat_toNat, BitVec.setWidth_eq]
    rfl
  | mh2 tsd =>
    cases hi
    have hok := (encMh2Ok_iff _).mpr tsd.isLt
    refine ⟨?_, fun _ => rfl⟩
    rw [encode, encodeMh2, if_pos hok]
    rfl
  | mh3 => cases hi; exact ⟨rfl, fun _ => rfl⟩
  | c0 | c1 | c2 | s0 | s1 | s2 | payload => cases hi

/-- An encoder call is read from the bytes of the unit it produces. -/
theorem decode_encode_of_unit {u : WireUnit} {i : Instr} (h : u.wf = true)
    (hi : encCallOf u = .ok i) : decode i.site (encode i) = .ok i := by
  obtain ⟨hbytes, hsite⟩ := encode_of_encCallOf hi
  have hu := wireUnitsReadBack u [] h
  rw [List.append_nil] at hu
  rw [hbytes, hsite, hu]
  exact hi

/-- Settles O10: an operation of the block's own is what its control state selects, and a call of the HTX
port what its port is; an encoder call in range is one of words, read back from the unit it produces. -/
theorem decodeOfEncodeIsTheInstruction : Obligations.DecodeOfEncodeIsTheInstruction := by
  intro i h
  cases i
  case encBh1 fmt csid =>
    obtain ⟨hfmt, hid⟩ := (encBh1Ok_iff fmt csid).mp h
    refine decode_encode_of_unit (u := .bh .one (BitVec.ofNat 2 fmt) csid) ?_ ?_
    · simpa [WireUnit.wf] using hid
    · simp only [encCallOf, BitVec.toNat_ofNat, Nat.mod_eq_of_lt (Nat.lt_succ_of_le hfmt)]
  case encBh2 fmt csid =>
    obtain ⟨hfmt, hid⟩ := (encBh2Ok_iff fmt csid).mp h
    refine decode_encode_of_unit (u := .bh .two (BitVec.ofNat 2 fmt) csid) ?_ ?_
    · simpa [WireUnit.wf] using hid
    · simp only [encCallOf, BitVec.toNat_ofNat, Nat.mod_eq_of_lt (Nat.lt_succ_of_le hfmt)]
  case encBh3 fmt csid =>
    obtain ⟨hfmt, hid⟩ := (encBh3Ok_iff fmt csid).mp h
    refine decode_encode_of_unit (u := .bh .three (BitVec.ofNat 2 fmt) csid) ?_ ?_
    · simpa [WireUnit.wf] using hid
    · simp only [encCallOf, BitVec.toNat_ofNat, Nat.mod_eq_of_lt (Nat.lt_succ_of_le hfmt)]
  case encMh0 ts len type msid =>
    obtain ⟨hts, hlen, htype, hmsid⟩ := (encMh0Ok_iff ts len type msid).mp h
    refine decode_encode_of_unit
      (u := .mh0 (BitVec.ofNat _ ts) (BitVec.ofNat _ len) (BitVec.ofNat _ type) (BitVec.ofNat _ msid))
      rfl ?_
    simp only [encCallOf, BitVec.toNat_ofNat, Nat.mod_eq_of_lt, hts, hlen, htype, hmsid]
  case encMh1 tsd len type =>
    obtain ⟨htsd, hlen, htype⟩ := (encMh1Ok_iff tsd len type).mp h
    refine decode_encode_of_unit
      (u := .mh1 (BitVec.ofNat _ tsd) (BitVec.ofNat _ len) (BitVec.ofNat _ type)) rfl ?_
    simp only [encCallOf, BitVec.toNat_ofNat, Nat.mod_eq_of_lt, htsd, hlen, htype]
  case encMh2 tsd =>
    have htsd := (encMh2Ok_iff tsd).mp h
    refine decode_encode_of_unit (u := .mh2 (BitVec.ofNat _ tsd)) rfl ?_
    simp only [encCallOf, BitVec.toNat_ofNat, Nat.mod_eq_of_lt, htsd]
  all_goals rfl

end Sys2Proof
end

section
/-! SUPPORT. The operation map and the rows of the opcode table (30_encoding.md R82, R87, R89, R94). -/

namespace Sys2Proof

/-- Settles O8: the ten words are evaluated. -/
theorem rowWordsDecodeToTheirRows : Obligations.RowWordsDecodeToTheirRows := by
  unfold Obligations.RowWordsDecodeToTheirRows
  decide

/-! ### The rows over `bh_b0` -/

/-- A first byte with this selector and `fmt = 0`. -/
def selByte (sel : BitVec 6) : Byte := sel.setWidth 8

/-- R82: a row over `bh_b0` looks at the selector bits alone. -/
theorem rowMatches_selByte (b : Byte) {row : Byte × Byte × Instr} (h : row ∈ bhxRows) :
    rowMatches b row = rowMatches (selByte (selOf b)) row := by
  have hmask : ∀ row ∈ bhxRows, 0x3F &&& row.1 = row.1 := by decide
  have hsel : selByte (selOf b) = b &&& 0x3F := by
    have hb := b.isLt
    apply BitVec.eq_of_toNat_eq
    rw [selByte, BitVec.toNat_setWidth, selOf_toNat, BitVec.toNat_and]
    exact (Nat.mod_eq_of_lt (by omega)).trans (Nat.and_two_pow_sub_one_eq_mod b.toNat 6).symm
  rw [rowMatches, rowMatches, hsel, BitVec.and_assoc, hmask row h]

theorem selOf_selByte (sel : BitVec 6) : selOf (selByte sel) = sel := by
  have hlt := sel.isLt
  apply BitVec.eq_of_toNat_eq
  rw [selOf_toNat, selByte, BitVec.toNat_setWidth]
  omega

/-- R82, for a byte that is its selector. -/
theorem selByte_has_one_row (sel : BitVec 6) :
    ∃ row ∈ bhxRows, rowMatches (selByte sel) row = true ∧
      row.2.2 = selectBhx (formOf (selByte sel)) ∧
      ∀ other ∈ bhxRows, rowMatches (selByte sel) other = true → other = row := by
  revert sel
  decide

/-- Settles O9: rows and form depend on the selector alone, and each of the 64 selectors has one row. -/
theorem everyHeaderByteHasOneRow : Obligations.EveryHeaderByteHasOneRow := by
  intro b
  obtain ⟨row, hmem, hrow, hform, huniq⟩ := selByte_has_one_row (selOf b)
  refine ⟨row, hmem, ?_, ?_, fun other ho hm => huniq other ho ?_⟩
  · rw [rowMatches_selByte b hmem, hrow]
  · rw [hform, formOf, formOf, selOf_selByte]
  · rw [← rowMatches_selByte b ho, hm]

end Sys2Proof

namespace Sys2Proof.Machine

theorem State.known_iff (s : State) : s.known = true ↔ s.resType ∈ s.knownTypes := by
  simp [State.known]

/-- Settles O5: what `fetch` answers in each `ck_state`, read at the value of the data that selects. -/
theorem controlStateSelectsTheOperation : Obligations.ControlStateSelectsTheOperation := by
  intro s hl
  refine ⟨fun hc => ?idle, State.fetch_bh0 hl, fun hc => ?bhx, fun hc => ?mh, State.fetch_payload hl,
    State.fetch_resolve hl, State.fetch_update hl, fun hc => ?dispatch⟩
  case idle =>
    rw [State.fetch_idle hl hc]
    refine ⟨?_, ?_, fun hs => ⟨_, _, by rw [hs]; rfl⟩, ?_, ?_, ?_, ?_⟩ <;>
      intro hs <;> rw [hs] <;> rfl
  case bhx =>
    rw [State.fetch_bhx hl hc]
    refine ⟨?_, ?_, ?_⟩ <;> intro hf <;> rw [hf] <;> rfl
  case mh =>
    rw [State.fetch_mh hl hc]
    refine ⟨?_, ?_, ?_, ?_⟩ <;> intro hf <;> rw [hf] <;> rfl
  case dispatch => simp only [State.fetch_dispatch hl hc, State.known_iff]

end Sys2Proof.Machine
end

section
/-! SUPPORT. The two headers of a chunk as wire units (30_encoding.md R95, R96): what the pure decoders take
from the front of RX, and the units whose bytes `chunkBytes` writes. -/

namespace Sys2Proof

/-- The id of a basic header, by its first byte and the bytes after it (R131 to R133). -/
def decodeCsid (form : BhForm) (b0 : Byte) (more : List Byte) : Csid :=
  match form with
  | .one => csidOne b0
  | .two => csidTwo (byteAt more 0)
  | .three => csidThree (byteAt more 0) (byteAt more 1)

/-- What `decodeBh` accepts: a first byte, and the further bytes its form has. -/
theorem decodeBh_ok {s rest : List Byte} {form : BhForm} {fmt : Fmt} {csid : Nat}
    (h : decodeBh s = .ok (.bh form fmt csid, rest)) :
    ∃ b0 tail, s = b0 :: tail ∧ fmtOf b0 = fmt ∧ formOf b0 = form ∧
      form.size - 1 ≤ tail.length ∧ rest = tail.drop (form.size - 1) ∧
      decodeCsid form b0 (tail.take (form.size - 1)) = BitVec.ofNat 17 csid := by
  unfold decodeBh at h
  split at h
  case h_1 => cases h
  case h_2 b0 tail =>
    refine ⟨b0, tail, rfl, ?_⟩
    split at h
    case h_1 hf => cases h; exact ⟨rfl, hf, Nat.zero_le _, rfl, by simp [decodeCsid]⟩
    case h_2 b1 tail hf =>
      cases h
      exact ⟨rfl, hf, by simp [BhForm.size], rfl, by simp [decodeCsid, BhForm.size, byteAt]⟩
    case h_3 b1 b2 tail hf =>
      cases h
      exact ⟨rfl, hf, by simp [BhForm.size], rfl, by simp [decodeCsid, BhForm.size, byteAt]⟩
    case h_4 => cases h

/-- The message-header registers that a message header fills (R151 to R154). -/
def WireUnit.header : WireUnit → MsgHeader
  | .mh0 ts len type msid => ⟨some ts, none, some len, some type, some msid⟩
  | .mh1 tsd len type => ⟨none, some tsd, some len, some type, none⟩
  | .mh2 tsd => ⟨none, some tsd, none, none, none⟩
  | _ => ⟨none, none, none, none, none⟩

/-- A header without a type has no length either (R25). -/
theorem header_len_of_type_none {u : WireUnit} (h : u.header.type = none) : u.header.len = none := by
  cases u with
  | mh0 | mh1 => cases h
  | _ => rfl

theorem byteAt_take {s : List Byte} {n i : Nat} (h : i < n) : byteAt (s.take n) i = byteAt s i := by
  simp [byteAt, List.getD_eq_getElem?_getD, List.getElem?_take_of_lt h]

theorem be24_take {s : List Byte} {n : Nat} (h : 3 ≤ n) : be24 (s.take n) = be24 s := by
  unfold be24
  rw [byteAt_take (by omega), byteAt_take (by omega), byteAt_take (by omega)]

theorem le32_take {s : List Byte} {n : Nat} (h : 4 ≤ n) : le32 (s.take n) = le32 s := by
  unfold le32
  rw [byteAt_take (by omega), byteAt_take (by omega), byteAt_take (by omega),
    byteAt_take (by omega)]

/-- The message-header registers that variant `fmt` fills from its bytes (R150). -/
def decodeHeader (fmt : Fmt) (s : List Byte) : MsgHeader :=
  if fmt = 0 then decodeMh0 s else if fmt = 1 then decodeMh1 s else if fmt = 2 then decodeMh2 s
  else decodeMh3

theorem fmt_cases : ∀ fmt : Fmt, fmt = 0 ∨ fmt = 1 ∨ fmt = 2 ∨ fmt = 3 := by decide

/-- What `decodeMh` accepts: the bytes of the variant, which fill the registers with the unit's fields. -/
theorem decodeMh_ok {fmt : Fmt} {s rest : List Byte} {u : WireUnit}
    (h : decodeMh fmt s = .ok (u, rest)) :
    mhSize fmt ≤ s.length ∧ rest = s.drop (mhSize fmt) ∧
      decodeHeader fmt (s.take (mhSize fmt)) = u.header := by
  unfold decodeMh at h
  split at h
  · cases h
  · refine ⟨by omega, ?_⟩
    rcases fmt_cases fmt with rfl | rfl | rfl | rfl <;> cases h <;> refine ⟨rfl, ?_⟩
    · change decodeMh0 (s.take 11) = _
      simp [decodeMh0, WireUnit.header, List.drop_take, be24_take, le32_take, byteAt_take]
    · change decodeMh1 (s.take 7) = _
      simp [decodeMh1, WireUnit.header, List.drop_take, be24_take, byteAt_take]
    · change decodeMh2 (s.take 3) = _
      simp [decodeMh2, WireUnit.header, be24_take]
    · rfl

/-! ### The units a chunk is made of (R96) -/

/-- The smallest form that spells an id (R141). -/
def smallestForm (csid : Nat) : BhForm :=
  if csid ≤ 63 then .one else if csid ≤ 319 then .two else .three

/-- What an encoder call answers are the bytes of its unit. -/
theorem eq_encodeUnit_of_call {u : WireUnit} {i : Instr} {answer : Option (List Byte)}
    {bytes : List Byte} (hi : encCallOf u = .ok i) (he : encode i = answer.getD [])
    (hb : answer = some bytes) : bytes = encodeUnit u := by
  rw [← (encode_of_encCallOf hi).1, he, hb]
  rfl

/-- `encode` writes a well-formed basic header in the smallest form of its id. -/
theorem encodeBh_some {fmt csid : Nat} {bytes : List Byte} (h : encodeBh fmt csid = some bytes) :
    csid ≤ Config.csidMax ∧ (WireUnit.bh (smallestForm csid) (BitVec.ofNat 2 fmt) csid).wf = true ∧
      bytes = encodeUnit (.bh (smallestForm csid) (BitVec.ofNat 2 fmt) csid) := by
  have hval : fmt ≤ 3 → (BitVec.ofNat 2 fmt).toNat = fmt := fun hf =>
    Nat.mod_eq_of_lt (Nat.lt_succ_of_le hf)
  unfold encodeBh at h
  unfold smallestForm
  split at h
  case isTrue h1 =>
    obtain ⟨hfmt, hlo, hhi⟩ := (encBh1Ok_iff fmt csid).mp (Option.ite_none_right_eq_some.mp h).1
    rw [← hval hfmt] at h
    rw [if_pos h1]
    exact ⟨hhi.trans (by decide), by simp [WireUnit.wf, hlo, hhi], eq_encodeUnit_of_call rfl rfl h⟩
  case isFalse h1 =>
    rw [if_neg h1]
    split at h
    case isTrue h2 =>
      obtain ⟨hfmt, hlo, hhi⟩ := (encBh2Ok_iff fmt csid).mp (Option.ite_none_right_eq_some.mp h).1
      rw [← hval hfmt] at h
      rw [if_pos h2]
      exact ⟨hhi.trans (by decide), by simp [WireUnit.wf, hlo, hhi], eq_encodeUnit_of_call rfl rfl h⟩
    case isFalse h2 =>
      obtain ⟨hfmt, hlo, hhi⟩ := (encBh3Ok_iff fmt csid).mp (Option.ite_none_right_eq_some.mp h).1
      rw [← hval hfmt] at h
      rw [if_neg h2]
      exact ⟨hhi, by simp [WireUnit.wf, hlo, hhi], eq_encodeUnit_of_call rfl rfl h⟩

/-- `ENC.MHfmt` of a header's fields writes the header unit with those fields (R156 to R160). -/
theorem encodeMh_some {fmt : Nat} {h : MsgHeader} {bytes : List Byte}
    (hb : encodeMh fmt h = some bytes) :
    ∃ u : WireUnit, u.kind = .mh (BitVec.ofNat 2 fmt) ∧ u.header = h ∧ bytes = encodeUnit u := by
  obtain ⟨_ | ts, _ | tsd, _ | len, _ | type, _ | msid⟩ := h
  case some.none.some.some.some =>
    obtain ⟨rfl, hb⟩ := Option.ite_none_right_eq_some.mp hb
    exact ⟨.mh0 ts len type msid, rfl, rfl, eq_encodeUnit_of_call rfl rfl hb⟩
  case none.some.some.some.none =>
    obtain ⟨rfl, hb⟩ := Option.ite_none_right_eq_some.mp hb
    exact ⟨.mh1 tsd len type, rfl, rfl, eq_encodeUnit_of_call rfl rfl hb⟩
  case none.some.none.none.none =>
    obtain ⟨rfl, hb⟩ := Option.ite_none_right_eq_some.mp hb
    exact ⟨.mh2 tsd, rfl, rfl, eq_encodeUnit_of_call rfl rfl hb⟩
  case none.none.none.none.none =>
    obtain ⟨rfl, hb⟩ := Option.ite_none_right_eq_some.mp hb
    cases hb
    exact ⟨.mh3, rfl, rfl, rfl⟩
  all_goals cases hb

theorem wf_of_kind_mh {u : WireUnit} {fmt : Fmt} (h : u.kind = .mh fmt) : u.wf = true := by
  cases u <;> cases h <;> rfl

theorem length_encodeUnit_mh {u : WireUnit} {fmt : Fmt} (h : u.kind = .mh fmt) :
    (encodeUnit u).length = mhSize fmt := by
  cases u <;> cases h <;> rfl

theorem BhForm.size_pos (form : BhForm) : 1 ≤ form.size := by
  cases form <;> decide

theorem length_of_decodeBh {s rest : List Byte} {form : BhForm} {fmt : Fmt} {csid : Nat}
    (h : decodeBh s = .ok (.bh form fmt csid, rest)) : s.length = form.size + rest.length := by
  obtain ⟨b0, tail, rfl, _, _, hn, rfl, _⟩ := decodeBh_ok h
  have hpos := form.size_pos
  simp only [List.length_cons, List.length_drop]
  omega

/-- A chunk is a basic header in the smallest form, a message header, and the payload. -/
theorem chunkBytes_some {fmt csid : Nat} {h : MsgHeader} {payload bytes : List Byte}
    (hb : chunkBytes fmt csid h payload = some bytes) :
    csid ≤ Config.csidMax ∧ ∃ bh mh : List Byte, ∃ u : WireUnit,
      bytes = bh ++ mh ++ payload ∧ mh.length = mhSize (BitVec.ofNat 2 fmt) ∧ u.header = h ∧
      (∀ rest, decodeBh (bh ++ rest) =
        .ok (.bh (smallestForm csid) (BitVec.ofNat 2 fmt) csid, rest)) ∧
      (∀ rest, decodeMh (BitVec.ofNat 2 fmt) (mh ++ rest) = .ok (u, rest)) := by
  unfold chunkBytes at hb
  split at hb
  case h_1 bh mh hbh hmh =>
    cases hb
    obtain ⟨hid, hwf, rfl⟩ := encodeBh_some hbh
    obtain ⟨u, hk, hh, rfl⟩ := encodeMh_some hmh
    refine ⟨hid, _, _, u, rfl, length_encodeUnit_mh hk, hh, fun rest => ?_, fun rest => ?_⟩
    · exact wireUnitsReadBack _ rest hwf
    · have hu := wireUnitsReadBack u rest (wf_of_kind_mh hk)
      rwa [hk] at hu
  case h_2 => cases hb

end Sys2Proof
end

section
/-! SUPPORT. A chunk read step by step (41_basic_header.md R130 to R133, 42_message_header.md R150 to R154,
43_chunk_reader.md R171 to R177, 44_demux.md R186 to R189, 45_session.md R201, R202): each `ck_state` of a
connection that nothing disturbs takes from RX what the pure decoders of the wire units take. -/

namespace Sys2Proof.Machine

/-! ### A run of the block's own steps -/

/-- Nothing is scheduled and no host call pends on a live connection: every step is the block's own. -/
structure State.Quiet (s : State) : Prop where
  live : s.fault.code = .noFault
  env : s.env = []
  hostQ : s.hostQ = []

/-- R11, R66 (b): a quiet connection runs the operation its control state selects. -/
theorem State.Quiet.step_eq {s : State} {i : Instr} (h : s.Quiet) (hf : s.fetch = .ok i) :
    step s = exec i s :=
  (step_env_nil (.inl h.live) h.env).trans (State.turn_of_fetch_ok h.live h.hostQ hf)

theorem run_succ {M : Host.Core} {s t : M.State} (h : M.step s = .next t) (n : Nat) :
    M.run (n + 1) s = M.run n t := by
  rw [Host.Core.run, h]

theorem run_add {M : Host.Core} {s t : M.State} {m : Nat} (h : M.run m s = .next t) (n : Nat) :
    M.run (m + n) s = M.run n t := by
  induction m generalizing s with
  | zero =>
    cases h
    rw [Nat.zero_add]
  | succ m ih =>
    rw [Nat.succ_add]
    cases hs : M.step s with
    | next u =>
      rw [run_succ hs] at h ⊢
      exact ih h
    | fault r => simp [Host.Core.run, hs] at h
    | refused r => simp [Host.Core.run, hs] at h

/-- `RxRead` with enough bytes, for the operation around it (R51 a, b). -/
theorem reading_enough {op : Op} {n : Nat} {s : State} {k : List Byte → State → State}
    (h : n ≤ s.rxAvail.length) :
    reading op n s k = .next (k (s.rxAvail.take n) (s.consumed n)) := by
  rw [reading, s.rxRead_enough n h]
  rfl

/-! ### The states on the way -/

/-- `s` after a chunk has been read and before its type is resolved: its first byte, its headers, its
payload, what follows it on RX, and its size (R96, R177). -/
def State.holdingChunk (s : State) (b0 : Byte) (c : Chunk) (payload rest : List Byte) (size : Nat) :
    State :=
  { s with
    rxAvail := rest
    rxPos := s.rxPos + size
    bhB0 := b0
    bhFmt := c.fmt
    bhForm := c.form
    bhCsid := c.csid
    mh := c.mh
    payload := payload
    ckState := .resolve }

/-- The decoded chunk of `chunkBytes` (R201). -/
def chunkOf (fmt csid : Nat) (h : MsgHeader) : Chunk :=
  ⟨BitVec.ofNat 2 fmt, smallestForm csid, BitVec.ofNat 17 csid, h⟩

/-- `s` after the type of its chunk is resolved (R186, R187). -/
def State.resolved (s : State) (type : Byte) : State :=
  { s with resType := type, ckState := .update }

/-- `s` after its entry is written and its chunk handed to the host or dropped (R189, R201, R202). -/
def State.handedOn (s : State) : State :=
  { s with
    cst := s.cst.write s.entry s.resType
    events := s.events ++ [if s.known then .deliver s.delivery else .drop s.resType]
    ckState := if s.known then .handler else .bh0 }

/-! ### The steps of the chunk path -/

section
variable {s : State} (h : s.Quiet)
include h

/-- R51, R66: a quiet connection whose selected operation reads does so, with enough bytes on RX. -/
theorem State.Quiet.step_reading {i : Instr} {n : Nat} {k : List Byte → State → State}
    (hf : s.fetch = .ok i) (hx : exec i s = reading i.op n s k) (hn : n ≤ s.rxAvail.length) :
    step s = .next (k (s.rxAvail.take n) (s.consumed n)) :=
  (h.step_eq hf).trans (hx.trans (reading_enough hn))

/-- R131 to R133: the three operations at `CK_BHX`, as one in the form. -/
theorem exec_selectBhx (hc : s.ckState = .bhx) :
    exec (selectBhx s.bhForm) s = reading (selectBhx s.bhForm).op (s.bhForm.size - 1) s fun b t =>
      { t with bhCsid := decodeCsid s.bhForm t.bhB0 b, ckState := .mh } := by
  have he : enabled (selectBhx s.bhForm) s = true := by
    cases hf : s.bhForm <;> simp [selectBhx, enabled, State.live, h.live, hc, hf]
  cases hf : s.bhForm <;> rw [hf] at he <;> exact if_pos he

/-- R151 to R154: the four operations at `CK_MH`, as one in the variant. -/
theorem exec_selectMh (hc : s.ckState = .mh) :
    exec (selectMh s.bhFmt) s = reading (selectMh s.bhFmt).op (mhSize s.bhFmt) s fun b t =>
      { t with mh := decodeHeader s.bhFmt b, ckState := .payload } := by
  have he : enabled (selectMh s.bhFmt) s = true := by
    rcases fmt_cases s.bhFmt with hf | hf | hf | hf <;>
      simp [selectMh, enabled, State.live, h.live, hc, hf]
  rcases fmt_cases s.bhFmt with hf | hf | hf | hf <;> rw [hf] at he ⊢ <;> exact if_pos he

/-- R130: one step from `CK_BH0` reads the first byte of the header. -/
theorem step_bhB0 (hc : s.ckState = .bh0) {b0 : Byte} {tail : List Byte}
    (hrx : s.rxAvail = b0 :: tail) :
    step s = .next { s with
      rxAvail := tail
      rxPos := s.rxPos + 1
      bhB0 := b0
      bhFmt := fmtOf b0
      bhForm := formOf b0
      ckState := .bhx } := by
  have he : enabled .bhB0 s = true := by simp [enabled, State.live, h.live, hc]
  rw [h.step_reading (State.fetch_bh0 h.live hc) (if_pos he) (by simp [hrx])]
  simp only [State.consumed, hrx]
  rfl

/-- R131 to R133: one step from `CK_BHX` reads the bytes the form still has. -/
theorem step_bhx (hc : s.ckState = .bhx) (hn : s.bhForm.size - 1 ≤ s.rxAvail.length) :
    step s = .next { s.consumed (s.bhForm.size - 1) with
      bhCsid := decodeCsid s.bhForm s.bhB0 (s.rxAvail.take (s.bhForm.size - 1))
      ckState := .mh } :=
  h.step_reading (State.fetch_bhx h.live hc) (exec_selectBhx h hc) hn

/-- R130 to R133: two steps from `CK_BH0` read the basic header that `decodeBh` reads. -/
theorem run_basicHeader (hc : s.ckState = .bh0) {form : BhForm} {fmt : Fmt} {csid : Nat}
    {rest : List Byte} (hd : decodeBh s.rxAvail = .ok (.bh form fmt csid, rest)) :
    ∃ b0, core.run 2 s = .next { s with
      rxAvail := rest
      rxPos := s.rxPos + form.size
      bhB0 := b0
      bhFmt := fmt
      bhForm := form
      bhCsid := BitVec.ofNat 17 csid
      ckState := .mh } := by
  obtain ⟨b0, tail, hrx, rfl, rfl, hn, rfl, hid⟩ := decodeBh_ok hd
  have hpos : s.rxPos + 1 + ((formOf b0).size - 1) = s.rxPos + (formOf b0).size := by
    have := (formOf b0).size_pos
    omega
  refine ⟨b0, (run_succ (step_bhB0 h hc hrx) 1).trans ?_⟩
  refine Eq.trans (run_succ (step_bhx ?quiet rfl hn) 0) ?_
  case quiet => exact ⟨h.live, h.env, h.hostQ⟩
  simp only [State.consumed, hid, hpos]
  rfl

/-- R151 to R154: one step from `CK_MH` reads the message header that `decodeMh` reads. -/
theorem step_mh (hc : s.ckState = .mh) {u : WireUnit} {rest : List Byte}
    (hd : decodeMh s.bhFmt s.rxAvail = .ok (u, rest)) :
    step s = .next { s with
      rxAvail := rest
      rxPos := s.rxPos + mhSize s.bhFmt
      mh := u.header
      ckState := .payload } := by
  obtain ⟨hn, rfl, hh⟩ := decodeMh_ok hd
  rw [h.step_reading (State.fetch_mh h.live hc) (exec_selectMh h hc) hn, hh]
  rfl

/-- R171, R172: one step from `CK_PAYLOAD` reads as many bytes as the header's length says, none where it
is absent. -/
theorem step_payload (hc : s.ckState = .payload) {payload rest : List Byte}
    (hrx : s.rxAvail = payload ++ rest) (hn : payload.length = s.payloadLength) :
    step s = .next { s with
      rxAvail := rest
      rxPos := s.rxPos + payload.length
      payload := payload
      ckState := .resolve } := by
  have hf := State.fetch_payload h.live hc
  cases hp : s.mhLenP with
  | true =>
    have he : enabled .payloadLen s = true := by simp [enabled, State.live, h.live, hc, hp]
    rw [hp] at hf
    rw [h.step_reading hf (if_pos he) (by simp [hrx, hn])]
    simp only [State.consumed, hrx, ← hn, List.take_left, List.drop_left]
  | false =>
    have he : enabled .payloadNone s = true := by simp [enabled, State.live, h.live, hc, hp]
    have hnil : payload = [] :=
      List.length_eq_zero_iff.mp (hn.trans (State.payloadLength_of_absent hp))
    subst hnil
    rw [hp] at hf
    rw [h.step_eq hf]
    refine (if_pos he).trans ?_
    rw [List.nil_append] at hrx
    rw [← hrx]
    rfl

/-! ### The chunk as a whole -/

/-- R177: four steps from `CK_BH0` read a chunk whose payload has the length its header gives. -/
theorem run_chunk (hc : s.ckState = .bh0) {fmt csid : Nat} {hdr : MsgHeader}
    {payload bytes rest : List Byte} (hb : chunkBytes fmt csid hdr payload = some bytes)
    (hn : payload.length = (hdr.len.map BitVec.toNat).getD 0) (hrx : s.rxAvail = bytes ++ rest) :
    ∃ b0, core.run 4 s = .next
      (s.holdingChunk b0 (chunkOf fmt csid hdr) payload rest bytes.length) := by
  obtain ⟨_, bh, mh, u, rfl, hmhLen, rfl, hbh, hmh⟩ := chunkBytes_some hb
  have hbhLen := length_of_decodeBh (hbh [])
  have hd := hbh (mh ++ (payload ++ rest))
  simp only [List.append_assoc] at hrx
  rw [← hrx] at hd
  obtain ⟨b0, hrun⟩ := run_basicHeader h hc hd
  refine ⟨b0, (run_add hrun 2).trans ?_⟩
  refine Eq.trans (run_succ (step_mh ?quiet rfl (hmh (payload ++ rest))) 1) ?_
  case quiet => exact ⟨h.live, h.env, h.hostQ⟩
  refine Eq.trans (run_succ (step_payload ?quiet rfl rfl hn) 0) ?_
  case quiet => exact ⟨h.live, h.env, h.hostQ⟩
  simp only [List.append_nil, List.length_nil, Nat.add_zero] at hbhLen
  simp only [State.holdingChunk, chunkOf, List.length_append, hbhLen, hmhLen, ← Nat.add_assoc]
  rfl

/-- R186: a header's own type is taken. -/
theorem step_resolve_direct (hc : s.ckState = .resolve) {type : Byte} (ht : s.mh.type = some type) :
    step s = .next (s.resolved type) := by
  have hp : s.mhTypeP = true := by simp [State.mhTypeP, ht]
  have he : enabled .resolveDirect s = true := by simp [enabled, State.live, h.live, hc, hp]
  have hf := State.fetch_resolve h.live hc
  rw [hp] at hf
  rw [h.step_eq hf]
  refine (if_pos he).trans ?_
  rw [ht]
  rfl

/-- R187: without a type in the header, `RESOLVE.INHERIT` runs. -/
theorem step_resolve_untyped (hc : s.ckState = .resolve) (ht : s.mh.type = none) :
    step s = execResolveInherit s := by
  have hf := State.fetch_resolve h.live hc
  rw [State.mhTypeP, ht] at hf
  exact h.step_eq hf

/-- R187: a valid entry gives its type. -/
theorem step_resolve_valid (hc : s.ckState = .resolve) (ht : s.mh.type = none)
    (hid : s.entry < Config.cstEntries) {type : Byte} (hr : s.cst.read s.entry = some type) :
    step s = .next (s.resolved type) := by
  have he : enabled .resolveInherit s = true := by
    simp [enabled, State.live, State.mhTypeP, h.live, hc, ht]
  rw [step_resolve_untyped h hc ht, execResolveInherit, if_pos he, if_pos hid, hr]
  rfl

/-- R187, R222: an invalid entry raises ProtocolError. -/
theorem step_resolve_missing (hc : s.ckState = .resolve) (ht : s.mh.type = none)
    (hid : s.entry < Config.cstEntries) (hr : s.cst.read s.entry = none) :
    step s = .next (s.raise .protocolError .resolveInherit) := by
  have he : enabled .resolveInherit s = true := by
    simp [enabled, State.live, State.mhTypeP, h.live, hc, ht]
  rw [step_resolve_untyped h hc ht, execResolveInherit, if_pos he, if_pos hid, hr]

/-- R189: the entry of the chunk's id is written. -/
theorem step_update (hc : s.ckState = .update) (hid : s.entry < Config.cstEntries) :
    step s = .next { s with cst := s.cst.write s.entry s.resType, ckState := .dispatch } := by
  have he : enabled .update s = true := by simp [enabled, State.live, h.live, hc]
  exact (h.step_eq (State.fetch_update h.live hc)).trans ((if_pos he).trans (if_pos hid))

/-- R201, R202: the chunk is handed to the host where its type is known, else dropped. -/
theorem step_dispatch (hc : s.ckState = .dispatch) :
    step s = .next { s with
      events := s.events ++ [if s.known then .deliver s.delivery else .drop s.resType]
      ckState := if s.known then .handler else .bh0 } := by
  have hf := State.fetch_dispatch h.live hc
  cases hk : s.known with
  | true =>
    have he : enabled .dispatch s = true := by simp [enabled, State.live, h.live, hc, hk]
    rw [hk] at hf
    exact (h.step_eq hf).trans (if_pos he)
  | false =>
    have he : enabled .drop s = true := by simp [enabled, State.live, h.live, hc, hk]
    rw [hk] at hf
    exact (h.step_eq hf).trans (if_pos he)

/-- R189, R201, R202: two steps from `CK_UPDATE` write the entry and hand the chunk on. -/
theorem run_handedOn (hc : s.ckState = .update) (hid : s.entry < Config.cstEntries) :
    core.run 2 s = .next s.handedOn := by
  refine (run_succ (step_update h hc hid) 1).trans ?_
  refine Eq.trans (run_succ (step_dispatch ?quiet rfl) 0) rfl
  case quiet => exact ⟨h.live, h.env, h.hostQ⟩

theorem State.Quiet.resolved (type : Byte) : (s.resolved type).Quiet := ⟨h.live, h.env, h.hostQ⟩

omit h in
theorem State.handedOn_of_known (hk : s.resType ∈ s.knownTypes) :
    s.handedOn.ckState = .handler ∧ s.handedOn.events = s.events ++ [.deliver s.delivery] := by
  simp [State.handedOn, s.known_iff.mpr hk]

omit h in
theorem State.handedOn_of_not_known (hk : s.resType ∉ s.knownTypes) :
    s.handedOn.ckState = .bh0 ∧ s.handedOn.events = s.events ++ [.drop s.resType] := by
  simp [State.handedOn, s.known_iff, hk]

omit h in
/-- R135: an id that an encoder takes is the index of its entry. -/
theorem State.entry_holdingChunk {fmt csid : Nat} {hdr : MsgHeader} (hid : csid ≤ Config.csidMax)
    (b0 : Byte) (payload rest : List Byte) (size : Nat) :
    (s.holdingChunk b0 (chunkOf fmt csid hdr) payload rest size).entry = csid :=
  Nat.mod_eq_of_lt (hid.trans_lt (by decide))

theorem State.Quiet.holdingChunk (b0 : Byte) (c : Chunk) (payload rest : List Byte) (size : Nat) :
    (s.holdingChunk b0 c payload rest size).Quiet :=
  ⟨h.live, h.env, h.hostQ⟩

/-- What the two exchanges share: a chunk that is read whole and whose type is resolved has its entry
written and is delivered or dropped, seven steps from `CK_BH0` (R177, R189, R201, R202). -/
theorem run_resolved_chunk (hc : s.ckState = .bh0) {fmt csid : Nat} {hdr : MsgHeader}
    {payload bytes rest : List Byte} (hb : chunkBytes fmt csid hdr payload = some bytes)
    (hn : payload.length = (hdr.len.map BitVec.toNat).getD 0) (hrx : s.rxAvail = bytes ++ rest)
    {type : Byte}
    (hres : ∀ b0, step (s.holdingChunk b0 (chunkOf fmt csid hdr) payload rest bytes.length) =
      .next ((s.holdingChunk b0 (chunkOf fmt csid hdr) payload rest bytes.length).resolved type)) :
    ∃ t, core.run 7 s = .next t ∧ t.fault = s.fault ∧ t.rxAvail = rest ∧
      t.rxPos = s.rxPos + bytes.length ∧ t.txPos = s.txPos ∧ t.cst = s.cst.write csid type ∧
      (type ∈ s.knownTypes → t.ckState = .handler ∧ t.events = s.events ++
        [.deliver ⟨type, payload, .htx, chunkOf fmt csid hdr⟩]) ∧
      (type ∉ s.knownTypes → t.ckState = .bh0 ∧ t.events = s.events ++ [.drop type]) := by
  have hid := (chunkBytes_some hb).1
  obtain ⟨b0, hrun⟩ := run_chunk h hc hb hn hrx
  have hentry := s.entry_holdingChunk (fmt := fmt) (hdr := hdr) hid b0 payload rest bytes.length
  have hq := h.holdingChunk b0 (chunkOf fmt csid hdr) payload rest bytes.length
  have hlast := run_handedOn (hq.resolved type) rfl (hentry.trans_lt (Nat.lt_succ_of_le hid))
  refine ⟨_, (run_add hrun 3).trans ((run_succ (hres b0) 2).trans hlast), rfl, rfl, rfl, rfl,
    congrArg (s.cst.write · type) hentry, fun hk => ?_, fun hk => ?_⟩
  · exact State.handedOn_of_known hk
  · exact State.handedOn_of_not_known hk

end

/-- Settles O58: the chunk is read, its own type is taken, and its entry alone is written. -/
theorem typedChunkIsDeliveredOrDropped : Obligations.TypedChunkIsDeliveredOrDropped := by
  intro s fmt csid hdr len type payload bytes rest hl hc he hq hb htype hlen hn hrx
  have h : s.Quiet := ⟨hl, he, hq⟩
  obtain ⟨t, hrun, hfault, hrest, hrxPos, htxPos, hcst, hknown, hunknown⟩ :=
    run_resolved_chunk h hc hb (by simp [hlen, hn]) hrx fun b0 =>
      step_resolve_direct (h.holdingChunk b0 (chunkOf fmt csid hdr) payload rest bytes.length) rfl htype
  refine ⟨t, hrun, hfault, hrest, hrxPos, htxPos, ?_, fun n hne => ?_, hknown, hunknown⟩
  · rw [hcst, Memory.read_write_same]
  · rw [hcst, Memory.read_write_other _ _ _ _ hne]

/-- Settles O59: a header without a type carries no length and so no payload; the type is what the entry holds
and is written back, and where the entry is invalid the next step raises. -/
theorem untypedChunkInheritsOrFails : Obligations.UntypedChunkInheritsOrFails := by
  intro s fmt csid hdr bytes rest hl hc he hq hb htype hrx
  have h : s.Quiet := ⟨hl, he, hq⟩
  obtain ⟨hid, _, _, u, _, _, rfl, _⟩ := chunkBytes_some hb
  have hn : ([] : List Byte).length = (u.header.len.map BitVec.toNat).getD 0 := by
    simp [header_len_of_type_none htype]
  have hlt : csid < Config.cstEntries := Nat.lt_succ_of_le hid
  have hentry := fun b0 => s.entry_holdingChunk (fmt := fmt) (hdr := u.header) hid b0 [] rest bytes.length
  have hquiet := fun b0 => h.holdingChunk b0 (chunkOf fmt csid u.header) [] rest bytes.length
  refine ⟨fun type hread => ?inherits, fun hread => ?fails⟩
  case inherits =>
    obtain ⟨t, hrun, hfault, hrest, hrxPos, _, hcst, hknown, hunknown⟩ :=
      run_resolved_chunk h hc hb hn hrx fun b0 =>
        step_resolve_valid (hquiet b0) rfl htype (by rwa [hentry]) (by rw [hentry]; exact hread)
    refine ⟨t, hrun, hfault, hrest, hrxPos, fun n => ?_, hknown, hunknown⟩
    rw [hcst]
    rcases eq_or_ne n csid with rfl | hne
    · rw [Memory.read_write_same, hread]
    · rw [Memory.read_write_other _ _ _ _ hne]
  case fails =>
    obtain ⟨b0, hrun⟩ := run_chunk h hc hb hn hrx
    have hraise := step_resolve_missing (hquiet b0) rfl htype (by rwa [hentry])
      (by rw [hentry]; exact hread)
    have hrun5 := (run_add hrun 1).trans (run_succ hraise 0)
    exact ⟨_, hrun5, rfl, rfl, rfl, rfl, rfl⟩

end Sys2Proof.Machine
end

section
/-! SUPPORT. What touches TX (20_memory.md R52, R60, R65): the operations that do, in the control states they
are enabled in, and that every other step leaves TX and its record (40_handshake.md R120,
70_reset_and_hazards.md R253, R259). -/

namespace Sys2Proof.Machine

/-- TX stands in `t` as in `s`: its counter, its unflushed bytes, and what the record says of it. -/
def State.SameTx (s t : State) : Prop :=
  t.txPos = s.txPos ∧ t.txPending = s.txPending ∧ txActs t.events = txActs s.events

theorem State.SameTx.trans {s t u : State} (h : s.SameTx t) (h' : t.SameTx u) : s.SameTx u := by
  unfold State.SameTx at *
  simp only [h', h, and_self]

theorem OutsideOnly.sameTx {s t : State} (h : OutsideOnly s t) : s.SameTx t := by
  rw [h]
  exact ⟨rfl, rfl, rfl⟩

/-- An event that is none of TX leaves its record. -/
theorem State.sameTx_log (s : State) {e : Event} (he : e.onTx = false) : s.SameTx (s.log e) := by
  refine ⟨rfl, rfl, ?_⟩
  simp [txActs, he]

/-- R208: the answer to an encoder call is none of TX. -/
theorem State.sameTx_answer (s : State) (op : Op) (result : Option (List Byte)) :
    s.SameTx (s.answer op result) := by
  cases result <;> exact s.sameTx_log rfl

/-- R51: a reading operation leaves TX where what it goes on with does. -/
theorem reading_sameTx {op : Op} {n : Nat} {s t : State} {k : List Byte → State → State}
    (h : reading op n s k = .next t) (hk : ∀ b (u : State), u.SameTx (k b u)) : s.SameTx t := by
  rcases reading_next h with rfl | rfl | ⟨_, rfl⟩
  · exact ⟨rfl, rfl, rfl⟩
  · exact ⟨rfl, rfl, rfl⟩
  · exact hk _ _

/-! ### An operation -/

/-- `hs_state` is one of the three in which the block sends (R112, R113, R115). -/
def State.Sending (s : State) : Prop :=
  s.hsState = .sendS0 ∨ s.hsState = .sendS1 ∨ s.hsState = .sendS2

/-- R60, R120: an operation that answers leaves TX, or runs in a handler window, or is one of the block's own
that has bytes to send. -/
theorem exec_sameTx {i : Instr} {s t : State} (h : exec i s = .next t) :
    s.SameTx t ∨ s.ckState = .handler ∨ (i.own = true ∧ s.Sending ∧ writeBytes i s ≠ []) := by
  cases i
  case encBh1 | encBh2 | encBh3 | encMh0 | encMh1 | encMh2 | encMh3 =>
    cases h
    exact .inl (s.sameTx_answer _ _)
  case htxWrite | htxFlush | ret =>
    rcases window_next h with ⟨he, _⟩ | rfl
    · simp only [enabled, Bool.and_eq_true, decide_eq_true_eq] at he
      exact .inr (.inl he.2)
    · exact .inl (s.sameTx_log rfl)
  all_goals
    obtain ⟨he, h⟩ := guard_next h
    simp only [enabled, Bool.and_eq_true, decide_eq_true_eq] at he
  case hsS0 => exact .inr (.inr ⟨rfl, .inl he.2, List.cons_ne_nil _ _⟩)
  case hsS1 => exact .inr (.inr ⟨rfl, .inr (.inl he.2), encodePacket_ne_nil _ _ _⟩)
  case hsS2 => exact .inr (.inr ⟨rfl, .inr (.inr he.2), s.s2Bytes_ne_nil⟩)
  all_goals left
  case hsC0 | hsC1 | hsC2 | bhB0 | bh1 | bh2 | bh3 | mh0 | mh1 | mh2 | mh3 | payloadLen =>
    exact reading_sameTx h fun _ _ => ⟨rfl, rfl, rfl⟩
  case hsDone | payloadNone | resolveDirect =>
    cases h
    exact ⟨rfl, rfl, rfl⟩
  case resolveInherit =>
    split at h
    · cases hr : s.cst.read s.entry <;> rw [hr] at h <;> cases h <;> exact ⟨rfl, rfl, rfl⟩
    · cases h
  case update =>
    split at h <;> cases h
    exact ⟨rfl, rfl, rfl⟩
  case dispatch =>
    cases h
    exact s.sameTx_log (e := .deliver s.delivery) rfl
  case drop =>
    cases h
    exact s.sameTx_log (e := .drop s.resType) rfl

/-- R120: on the chunk path the operation the block selects has no bytes to send. -/
theorem writeBytes_of_fetch_chunk {s : State} {i : Instr} (hl : s.fault.code = .noFault)
    (hc : s.ckState ≠ .idle) (hf : s.fetch = .ok i) (u : State) : writeBytes i u = [] := by
  rw [State.fetch_of_live hl rfl] at hf
  unfold select at hf
  cases hk : s.ckState <;> simp only [hk, if_true] at hf <;> cases hf
  case idle => exact absurd hk hc
  case bh0 | update => rfl
  case bhx => cases h : s.selector.form <;> rfl
  case mh => rcases fmt_cases s.selector.fmt with h | h | h | h <;> rw [h] <;> rfl
  case payload | resolve | dispatch => split <;> rfl

/-- R110, R120: an own operation that has bytes to send is next in `CK_IDLE` only. -/
theorem State.idle_of_nextOp_writes {s u : State} {i : Instr} (hl : s.fault.code = .noFault)
    (hi : s.nextOp = .ok i) (ho : i.own = true) (hw : writeBytes i u ≠ []) : s.ckState = .idle := by
  cases hq : s.hostQ with
  | cons call rest =>
    rw [State.nextOp_of_call hq] at hi
    cases hi
    rw [own_toInstr] at ho
    cases ho
  | nil =>
    rw [State.nextOp_of_nil hq] at hi
    by_contra hc
    exact hw (writeBytes_of_fetch_chunk hl hc hi u)

/-! ### A step -/

/-- R31: what the outside does itself, short of a deadline and a reset, leaves TX. -/
theorem State.sameTx_apply (s : State) {e : EnvEvent} (hd : e ≠ .deadline) (hr : ∀ rx, e ≠ .rst rx) :
    s.SameTx (s.apply e) := by
  cases e with
  | tick | transport | host => exact ⟨rfl, rfl, rfl⟩
  | rx | rxClose | rxError => dsimp only [State.apply]; split <;> exact ⟨rfl, rfl, rfl⟩
  | htx call =>
    dsimp only [State.apply]
    split
    · exact ⟨rfl, rfl, rfl⟩
    · exact s.sameTx_log rfl
  | deadline => exact absurd rfl hd
  | rst rx => exact absurd rfl (hr rx)

/-- A step of a live connection that is no reset leaves TX, or executes the operation `nextOp` names, on a
transport and with a queue and a schedule as the outside leaves them (R66, R237). -/
theorem step_sameTx_or_exec {s t : State} (hl : s.fault.code = .noFault) (hr : s.noReset)
    (h : step s = .next t) :
    s.SameTx t ∨
      ∃ i u v, s.nextOp = .ok i ∧ OutsideOnly s u ∧ exec i u = .next v ∧ OutsideOnly v t := by
  rcases step_next h with ⟨hc, _⟩ | ⟨_, ⟨e, rest, he, rfl⟩ | ⟨env, ht⟩⟩
  · exact absurd hl hc
  · by_cases hd : e = .deadline
    · subst hd
      rcases State.expire_cases { s with env := rest } with hx | ⟨i, v, hi, _, _, hx, ht⟩
      · rw [State.apply, hx]
        exact .inl ⟨rfl, rfl, rfl⟩
      · rw [State.apply, ht]
        exact .inr ⟨i, _, v, hi, by rfl, hx, by rfl⟩
    · exact .inl (State.sameTx_apply { s with env := rest } hd fun rx hrx => hr rx rest (hrx ▸ he))
  · rcases State.turn_next ht with rfl | ⟨call, rest, hq, _, hx⟩ | ⟨hq, _, i, hf, hx⟩
    · exact .inl ⟨rfl, rfl, rfl⟩
    · exact .inr ⟨_, _, t, State.nextOp_of_call hq, by rfl, hx, by rfl⟩
    · exact .inr ⟨i, _, t, (State.nextOp_of_nil hq).trans hf, by rfl, hx, by rfl⟩

/-- Settles O53: only an executed operation can touch TX; it does so in a handler window, or has bytes to send,
which of the block's own operations only those of `CK_IDLE` have. -/
theorem onlyItsWritersExtendTx : Obligations.OnlyItsWritersExtendTx := by
  intro s t hl hr hstep hne
  have hne : ¬ s.SameTx t := fun ⟨hpos, hpend, hev⟩ => by simp [hpos, hpend, hev] at hne
  rcases step_sameTx_or_exec hl hr hstep with h | ⟨i, u, v, hi, hu, hx, ht⟩
  · exact absurd h hne
  · obtain ⟨hhs, hck⟩ := hu.control_eq
    rcases exec_sameTx hx with h | h | ⟨ho, hs, hw⟩
    · exact absurd (hu.sameTx.trans (h.trans ht.sameTx)) hne
    · exact .inr (hck ▸ h)
    · unfold State.Sending at hs
      exact .inl ⟨State.idle_of_nextOp_writes hl hi ho hw, hhs ▸ hs⟩

end Sys2Proof.Machine
end

section
/-! SUPPORT. The seven handshake operations run to their ends (40_handshake.md R111 to R117), each on a
connection whose streams let it. -/

namespace Sys2Proof.Machine

/-! ### The primitives where they go through -/

section
variable {s s₀ : State} {op : Op} {b : List Byte} {k : State → State}

theorem State.txFlush_ready (ho : s.txFlushOk = true) (hr : s.txFlushReady = true) :
    s.txFlush = .done s.flushed := by
  simp [State.txFlush, State.flushed, ho, hr]

theorem writing_ready (hb : b ≠ []) (ho : s.txOk = true) (hr : s.txReady = true) :
    writing op b s₀ s k = .next (k (s.wrote b)) := by
  rw [writing, State.txWrite_ready hb ho hr]

theorem writingFlush_ready (hb : b ≠ []) (ho : s.txOk = true) (hf : s.txFlushOk = true)
    (hr : s.txReady = true) (hfr : s.txFlushReady = true) :
    writingFlush op b s₀ s k = .next (k (s.wrote b).flushed) := by
  have hflush : (s.wrote b).txFlush = .done (s.wrote b).flushed := State.txFlush_ready hf hfr
  simp only [writingFlush, State.txWrite_ready hb ho hr, hflush]

end

/-! ### The echo -/

/-- R91: the bytes of S2, by the three fields of C1. -/
theorem State.s2Bytes_eq {s : State} {time second random : List Byte}
    (hc1 : s.c1 = time ++ second ++ random) (ht : time.length = 4) (hs : second.length = 4)
    (hr : random.length = 1528) : s.s2Bytes = time ++ [0, 0, 0, 0] ++ random := by
  have htime : s.c1.take 4 = time := by
    rw [hc1, List.append_assoc, List.take_left' ht]
  have hrandom : s.c1.drop 8 = random := by
    rw [hc1, List.drop_left' (by simp [ht, hs])]
  rw [State.s2Bytes, htime, hrandom, List.take_of_length_le hr.le]

/-! ### The operations -/

/-- Settles O12: one byte is read, whatever it is. -/
theorem hsC0StoresTheVersionByte : Obligations.HsC0StoresTheVersionByte := by
  intro s b rest hl hs hrx
  have he : enabled .hsC0 s = true := by simp [enabled, State.live, hl, hs]
  refine (if_pos he).trans ((reading_enough (by simp [hrx])).trans ?_)
  simp only [State.consumed, hrx]
  rfl

/-- Settles O13: S0 is the constant 3, and one write is all the operation does to TX. -/
theorem hsS0SendsVersionThree : Obligations.HsS0SendsVersionThree := by
  intro s hl hs ho hr
  have he : enabled .hsS0 s = true := by simp [enabled, State.live, hl, hs]
  exact (if_pos he).trans (writing_ready (List.cons_ne_nil _ _) ho hr)

/-- Settles O14: the packet is S1 of the draw, written and flushed. -/
theorem hsS1SendsTimeZeroAndRandom : Obligations.HsS1SendsTimeZeroAndRandom := by
  intro s t r hl hs ho hf hr hfr packet hp
  have he : enabled (.hsS1 t r) s = true := by simp [enabled, State.live, hl, hs]
  have hp : packet = encodeUnit (.s1 t r) := hp
  have hlen : packet.length = 1536 := hp ▸ encodePacket_length t 0 r
  have hx := writingFlush_ready (op := .hsS1) (s₀ := s) (s := s.withBuffer (.hsS1 t r))
    (k := fun u => { u with hsState := .awaitC1 }) (encodePacket_ne_nil t 0 r) ho hf hr hfr
  refine (if_pos he).trans (hx.trans ?_)
  rw [State.wrote_flushed, ← hlen, hp]
  rfl

/-- Settles O15: 1536 bytes are read, whatever they are. -/
theorem hsC1StoresTheClientPacket : Obligations.HsC1StoresTheClientPacket := by
  intro s hl hs hn
  have he : enabled .hsC1 s = true := by simp [enabled, State.live, hl, hs]
  exact (if_pos he).trans (reading_enough hn)

/-- Settles O16: the packet is S2 of the fields of C1, written and flushed. -/
theorem hsS2EchoesTimeAndRandom : Obligations.HsS2EchoesTimeAndRandom := by
  intro s time second random hl hs ho hf hr hfr hc1 htime hsecond hrandom
  have he : enabled .hsS2 s = true := by simp [enabled, State.live, hl, hs]
  have hlen : s.s2Bytes.length = 1536 := s.s2Bytes_length (by simp [hc1, htime, hsecond, hrandom])
  have hx := writingFlush_ready (op := .hsS2) (s₀ := s) (s := s.withBuffer .hsS2)
    (k := fun u => { u with hsState := .awaitC2 }) s.s2Bytes_ne_nil ho hf hr hfr
  refine (if_pos he).trans (hx.trans ?_)
  rw [← State.s2Bytes_eq hc1 htime hsecond hrandom, State.wrote_flushed, ← hlen]
  rfl

/-- Settles O17: 1536 bytes are read, and the six buffers are left with what `discardHandshake` puts there. -/
theorem hsC2EndsTheHandshake : Obligations.HsC2EndsTheHandshake := by
  intro s hl hs hn
  have he : enabled .hsC2 s = true := by simp [enabled, State.live, hl, hs]
  exact ⟨_, _, _, _, _, _, (if_pos he).trans (reading_enough hn)⟩

/-- Settles O18: the operation touches `ck_state` alone. -/
theorem hsDoneOpensTheChunkPath : Obligations.HsDoneOpensTheChunkPath := by
  intro s hl hs hc
  have he : enabled .hsDone s = true := by simp [enabled, State.live, hl, hs, hc]
  exact if_pos he

end Sys2Proof.Machine
end

section
/-! SUPPORT. The handshake as a run (40_handshake.md R110 to R117, R121), on a connection that nothing disturbs:
one lemma for the step from each `hs_state` to the next, and the seven steps one after the other. -/

namespace Sys2Proof.Machine

/-- The handshake goes on: nothing disturbs it, and the transport takes every write and flush at once. -/
structure State.Answering (s : State) : Prop extends State.Quiet s where
  idle : s.ckState = .idle
  txOk : s.txOk = true
  txFlushOk : s.txFlushOk = true
  txReady : s.txReady = true
  txFlushReady : s.txFlushReady = true

/-- In `n` steps the handshake goes from `s` to `t` at `hs_state` `x`: `rx` bytes are read with `rest` left on RX,
`tx` bytes are written, the outside sees `record`, and no exception is raised. -/
structure Reaches (n : Nat) (s t : State) (x : HsState) (rest : List Byte) (rx tx : Nat)
    (record : List Event) : Prop where
  run : core.run n s = .next t
  answering : t.Answering
  hsState : t.hsState = x
  fault : t.fault = s.fault
  rxAvail : t.rxAvail = rest
  rxPos : t.rxPos = s.rxPos + rx
  txPos : t.txPos = s.txPos + tx
  events : t.events = s.events ++ record

theorem Reaches.trans {m n rx rx' tx tx' : Nat} {s t u : State} {x y : HsState}
    {rest rest' : List Byte} {record record' : List Event}
    (h : Reaches m s t x rest rx tx record) (h' : Reaches n t u y rest' rx' tx' record') :
    Reaches (m + n) s u y rest' (rx + rx') (tx + tx') (record ++ record') :=
  { h' with
    run := (run_add h.run n).trans h'.run
    fault := h'.fault.trans h.fault
    rxPos := by rw [h'.rxPos, h.rxPos, Nat.add_assoc]
    txPos := by rw [h'.txPos, h.txPos, Nat.add_assoc]
    events := by rw [h'.events, h.events, List.append_assoc] }

section
variable {s : State} (h : s.Answering)
include h

/-- R110: each step is the operation of its `hs_state`. -/
theorem State.Answering.run_one {x : HsState} {t : State} (hs : s.hsState = x)
    (hx : exec (selectHandshake (Config.drawTime s.conn) (drawRandom s.conn) x) s = .next t) :
    core.run 1 s = .next t :=
  run_succ (M := core) ((h.toQuiet.step_eq (hs ▸ State.fetch_idle h.live h.idle)).trans hx) 0

/-- R111: `HS.C0` takes any version byte. -/
theorem reaches_sendS0 (hs : s.hsState = .awaitC0) {v : Byte} {rest : List Byte}
    (hrx : s.rxAvail = v :: rest) :
    ∃ t, Reaches 1 s t .sendS0 rest 1 0 [] ∧ t.c0Version = v := by
  have hx := h.run_one hs (hsC0StoresTheVersionByte s v rest h.live hs hrx)
  exact ⟨_, ⟨hx, { h with }, rfl, rfl, rfl, rfl, rfl, (List.append_nil _).symm⟩, rfl⟩

/-- R112: `HS.S0` sends 3. -/
theorem reaches_sendS1 (hs : s.hsState = .sendS0) :
    ∃ t, Reaches 1 s t .sendS1 s.rxAvail 0 1 [.tx [3]] ∧ t.c0Version = s.c0Version := by
  have hx := h.run_one hs (hsS0SendsVersionThree s h.live hs h.txOk h.txReady)
  exact ⟨_, ⟨hx, { h with }, rfl, rfl, rfl, rfl, rfl, rfl⟩, rfl⟩

/-- R113: `HS.S1` sends the connection's draws. -/
theorem reaches_awaitC1 (hs : s.hsState = .sendS1) :
    ∃ (now : Word32) (draw : RandomBlock) (t : State), Reaches 1 s t .awaitC1 s.rxAvail 0 1536
      [.tx (toBe32 now.toNat ++ [0, 0, 0, 0] ++ draw.toList), .flush] ∧ t.c0Version = s.c0Version := by
  have hx := h.run_one hs (hsS1SendsTimeZeroAndRandom s _ _ h.live hs h.txOk h.txFlushOk
    h.txReady h.txFlushReady _ rfl)
  exact ⟨_, _, _, ⟨hx, { h with }, rfl, rfl, rfl, rfl, rfl, rfl⟩, rfl⟩

/-- R114: `HS.C1` keeps C1. -/
theorem reaches_sendS2 (hs : s.hsState = .awaitC1) {c1 rest : List Byte}
    (hrx : s.rxAvail = c1 ++ rest) (hn : c1.length = 1536) :
    ∃ t, Reaches 1 s t .sendS2 rest 1536 0 [] ∧ t.c0Version = s.c0Version ∧ t.c1 = c1 := by
  have hx := h.run_one hs (hsC1StoresTheClientPacket s h.live hs (by simp [hrx, hn]))
  rw [hrx, List.take_left' hn, List.drop_left' hn] at hx
  exact ⟨_, ⟨hx, { h with }, rfl, rfl, rfl, rfl, rfl, (List.append_nil _).symm⟩, rfl, rfl⟩

/-- R115: `HS.S2` sends C1 back, its second field zero. -/
theorem reaches_awaitC2 (hs : s.hsState = .sendS2) {time second random : List Byte}
    (hc1 : s.c1 = time ++ second ++ random) (htime : time.length = 4) (hsecond : second.length = 4)
    (hrandom : random.length = 1528) :
    ∃ t, Reaches 1 s t .awaitC2 s.rxAvail 0 1536 [.tx (time ++ [0, 0, 0, 0] ++ random), .flush] ∧
      t.c0Version = s.c0Version := by
  have hx := h.run_one hs (hsS2EchoesTimeAndRandom s _ _ _ h.live hs h.txOk h.txFlushOk
    h.txReady h.txFlushReady hc1 htime hsecond hrandom)
  exact ⟨_, ⟨hx, { h with }, rfl, rfl, rfl, rfl, rfl, rfl⟩, rfl⟩

/-- R116: `HS.C2` takes any C2. -/
theorem reaches_done (hs : s.hsState = .awaitC2) {c2 rest : List Byte}
    (hrx : s.rxAvail = c2 ++ rest) (hn : c2.length = 1536) :
    ∃ t, Reaches 1 s t .done rest 1536 0 [] ∧ t.c0Version = s.c0Version := by
  obtain ⟨_, _, _, _, _, _, hC2⟩ := hsC2EndsTheHandshake s h.live hs (by simp [hrx, hn])
  have hx := h.run_one hs hC2
  rw [hrx, List.drop_left' hn] at hx
  exact ⟨_, ⟨hx, { h with }, rfl, rfl, rfl, rfl, rfl, (List.append_nil _).symm⟩, rfl⟩

/-- R117: `HS.DONE` opens the chunk path. -/
theorem run_hsDone (hs : s.hsState = .done) : core.run 1 s = .next { s with ckState := .bh0 } :=
  h.run_one hs (hsDoneOpensTheChunkPath s h.live hs h.idle)

end

/-- What a client sends: its version byte, the three fields of C1, and C2 (R96). -/
theorem handshakeBytes_append (v : Byte) (time zero : Word32) (random : RandomBlock)
    (c2 rest : List Byte) :
    handshakeBytes v time zero random c2 ++ rest =
      v :: (encodePacket time zero random ++ (c2 ++ rest)) := by
  simp [handshakeBytes, encodeUnit]

/-- Settles O57: the six handshake operations that move bytes take the connection through the six `hs_state`s
before `Done`, and `HS.DONE` is the seventh step. -/
theorem handshakeAnswersTheClient : Obligations.HandshakeAnswersTheClient := by
  intro s v time zero random c2 rest hl hs hc he hq ho hf hr hfr hn hrx
  rw [handshakeBytes_append] at hrx
  have h : s.Answering := ⟨⟨hl, he, hq⟩, hc, ho, hf, hr, hfr⟩
  obtain ⟨_, r1, hv1⟩ := reaches_sendS0 h hs hrx
  obtain ⟨_, r2, hv2⟩ := reaches_sendS1 r1.answering r1.hsState
  obtain ⟨now, draw, _, r3, hv3⟩ := reaches_awaitC1 r2.answering r2.hsState
  have hrx3 := r3.rxAvail.trans (r2.rxAvail.trans r1.rxAvail)
  obtain ⟨_, r4, hv4, hc1⟩ :=
    reaches_sendS2 r3.answering r3.hsState hrx3 (encodePacket_length time zero random)
  obtain ⟨_, r5, hv5⟩ := reaches_awaitC2 r4.answering r4.hsState hc1 rfl rfl (RandomBlock_length random)
  obtain ⟨_, r6, hv6⟩ := reaches_done r5.answering r5.hsState (r5.rxAvail.trans r4.rxAvail) hn
  have r := ((((r1.trans r2).trans r3).trans r4).trans r5).trans r6
  have hv := hv6.trans (hv5.trans (hv4.trans (hv3.trans (hv2.trans hv1))))
  have hrun := (run_add r.run 1).trans (run_hsDone r6.answering r6.hsState)
  exact ⟨_, now, draw, hrun, r.hsState, rfl, r.fault, hv, r.rxAvail, r.rxPos,
    r.txPos, r.events⟩

end Sys2Proof.Machine
end

section
/-! SUPPORT. The basic-header encoders as arithmetic (41_basic_header.md R138 to R142): what each answers for any
numbers, and that each form's encoder undoes the decoder on that form. -/

namespace Sys2Proof

/-! ### What the encoders answer (R138 to R141) -/

theorem encodeBh1_eq (fmt csid : Nat) : encodeBh1 fmt csid =
    if fmt ≤ 3 ∧ 2 ≤ csid ∧ csid ≤ 63 then some [BitVec.ofNat 8 (fmt * 64 + csid)] else none := by
  simp only [encodeBh1, encBh1Ok_iff]
  split
  case isTrue h => rw [bhByte0_eq fmt csid h.2.2]
  case isFalse => rfl

theorem encodeBh2_eq (fmt csid : Nat) : encodeBh2 fmt csid =
    if fmt ≤ 3 ∧ 64 ≤ csid ∧ csid ≤ 319 then
      some [BitVec.ofNat 8 (fmt * 64), BitVec.ofNat 8 (csid - 64)] else none := by
  simp only [encodeBh2, encBh2Ok_iff, bhByte0_eq fmt 0 (by decide), Nat.add_zero]

theorem encodeBh3_eq (fmt csid : Nat) : encodeBh3 fmt csid =
    if fmt ≤ 3 ∧ 64 ≤ csid ∧ csid ≤ 65599 then
      some [BitVec.ofNat 8 (fmt * 64 + 1), BitVec.ofNat 8 ((csid - 64) % 256),
        BitVec.ofNat 8 ((csid - 64) / 256)] else none := by
  simp only [encodeBh3, encBh3Ok_iff, bhByte0_eq fmt 1 (by decide)]

/-- R141: `encode` refuses the operands that no form spells. -/
theorem encodeBh_eq_none_iff (fmt csid : Nat) :
    encodeBh fmt csid = none ↔ ¬ (fmt ≤ 3 ∧ 2 ≤ csid ∧ csid ≤ 65599) := by
  simp only [encodeBh, encodeBh1_eq, encodeBh2_eq, encodeBh3_eq]
  split_ifs <;> simp only [true_iff, false_iff] <;> omega

/-! ### The encoder of a form (R141, R142) -/

/-- The encoder that writes a form (R138 to R140). -/
def encodeForm : BhForm → Nat → Nat → Option (List Byte)
  | .one => encodeBh1
  | .two => encodeBh2
  | .three => encodeBh3

/-- R141: `encode` is the encoder of the id's smallest form. -/
theorem encodeBh_eq_encodeForm (fmt csid : Nat) :
    encodeBh fmt csid = encodeForm (smallestForm csid) fmt csid := by
  unfold encodeBh smallestForm
  split
  · rfl
  · split <;> rfl

/-- A form's encoder answers for ids that the form spells, with the bytes of the unit. -/
theorem encodeForm_some {form : BhForm} {fmt csid : Nat} {bytes : List Byte}
    (h : encodeForm form fmt csid = some bytes) :
    fmt ≤ 3 ∧ (WireUnit.bh form (BitVec.ofNat 2 fmt) csid).wf = true ∧
      bytes = encodeUnit (.bh form (BitVec.ofNat 2 fmt) csid) := by
  have hval : fmt ≤ 3 → (BitVec.ofNat 2 fmt).toNat = fmt := fun hf =>
    Nat.mod_eq_of_lt (Nat.lt_succ_of_le hf)
  cases form
  all_goals
    have hr := (Option.ite_none_right_eq_some.mp h).1
    simp only [encBh1Ok_iff, encBh2Ok_iff, encBh3Ok_iff] at hr
    exact ⟨hr.1, by simp [WireUnit.wf, hr], eq_encodeUnit_of_call rfl rfl ((hval hr.1).symm ▸ h)⟩

/-- R82: the ids of a well-formed basic header fit `bh_csid`. -/
theorem bh_wf_lt {form : BhForm} {fmt : Fmt} {csid : Nat}
    (h : (WireUnit.bh form fmt csid).wf = true) : csid < 2 ^ 17 := by
  cases form
  all_goals
    simp only [WireUnit.wf, Bool.and_eq_true, decide_eq_true_eq] at h
    omega

/-- R142: the form of a well-formed header is its id's smallest, unless it is the 3-byte form of an id that
two bytes spell. -/
theorem smallestForm_eq {form : BhForm} {fmt : Fmt} {csid : Nat}
    (hw : (WireUnit.bh form fmt csid).wf = true) (h : ¬ (form = .three ∧ csid ≤ 319)) :
    smallestForm csid = form := by
  unfold smallestForm
  cases form <;> simp only [WireUnit.wf, Bool.and_eq_true, decide_eq_true_eq] at hw
  case one => rw [if_pos hw.2]
  case two => rw [if_neg (by omega), if_pos hw.2]
  case three =>
    have hhi : ¬ csid ≤ 319 := fun hle => h ⟨rfl, hle⟩
    rw [if_neg (by omega), if_neg hhi]

/-- R142: what a form's encoder writes, `decodeBh` reads back. -/
theorem decodeBh_encodeForm {form : BhForm} {fmt csid : Nat} {bytes : List Byte}
    (h : encodeForm form fmt csid = some bytes) (rest : List Byte) :
    decodeBh (bytes ++ rest) = .ok (.bh form (BitVec.ofNat 2 fmt) csid, rest) := by
  obtain ⟨_, hw, rfl⟩ := encodeForm_some h
  exact decodeBh_encodeUnit form _ csid rest hw

/-! ### Encoding after decoding (R142) -/

theorem fmtOf_toNat (b : Byte) : (fmtOf b).toNat = b.toNat / 64 := by
  rw [fmtOf_eq, BitVec.toNat_ofNat]
  omega

theorem csidOne_toNat (b : Byte) : (csidOne b).toNat = b.toNat % 64 := by
  rw [csidOne, selOf_toNat, BitVec.toNat_ofNat]
  omega

theorem csidTwo_toNat (b : Byte) : (csidTwo b).toNat = b.toNat + 64 := by
  rw [csidTwo, BitVec.toNat_ofNat]
  omega

theorem formOf_eq_one_iff (b : Byte) : formOf b = .one ↔ 2 ≤ b.toNat % 64 := by
  rw [formOf_eq]
  split_ifs <;> simp only [true_iff, false_iff] <;> omega

theorem formOf_eq_two_iff (b : Byte) : formOf b = .two ↔ b.toNat % 64 = 0 := by
  rw [formOf_eq]
  split_ifs <;> simp only [true_iff, false_iff] <;> omega

theorem formOf_eq_three_iff (b : Byte) : formOf b = .three ↔ b.toNat % 64 = 1 := by
  rw [formOf_eq]
  split_ifs <;> simp only [true_iff, false_iff] <;> omega

theorem ofNat_eq_byte (b : Byte) {n : Nat} (h : n = b.toNat) : BitVec.ofNat 8 n = b := by
  rw [h, BitVec.ofNat_toNat, BitVec.setWidth_eq]

theorem encodeBh1_decoded {b0 : Byte} (h : formOf b0 = .one) :
    encodeBh1 (fmtOf b0).toNat (csidOne b0).toNat = some [b0] := by
  have hsel := (formOf_eq_one_iff b0).mp h
  rw [encodeBh1_eq, fmtOf_toNat, csidOne_toNat, if_pos (by omega), ofNat_eq_byte b0 (by omega)]

theorem encodeBh2_decoded {b0 : Byte} (h : formOf b0 = .two) (b1 : Byte) :
    encodeBh2 (fmtOf b0).toNat (csidTwo b1).toNat = some [b0, b1] := by
  have hsel := (formOf_eq_two_iff b0).mp h
  rw [encodeBh2_eq, fmtOf_toNat, csidTwo_toNat, if_pos (by omega), ofNat_eq_byte b0 (by omega),
    ofNat_eq_byte b1 (by omega)]

theorem encodeBh3_decoded {b0 : Byte} (h : formOf b0 = .three) (b1 b2 : Byte) :
    encodeBh3 (fmtOf b0).toNat (csidThree b1 b2).toNat = some [b0, b1, b2] := by
  have hsel := (formOf_eq_three_iff b0).mp h
  rw [encodeBh3_eq, fmtOf_toNat, csidThree_toNat, if_pos (by omega), ofNat_eq_byte b0 (by omega),
    ofNat_eq_byte b1 (by omega), ofNat_eq_byte b2 (by omega)]

/-- R142: a decoded basic header, encoded in its own form, gives its bytes back. -/
theorem encodeForm_of_decodeBh {bytes : List Byte} {form : BhForm} {fmt : Fmt} {csid : Nat}
    (h : decodeBh bytes = .ok (.bh form fmt csid, [])) :
    encodeForm form fmt.toNat csid = some bytes := by
  unfold decodeBh at h
  split at h
  case h_1 => cases h
  case h_2 b0 tail =>
    split at h
    case h_1 hf => cases h; exact encodeBh1_decoded hf
    case h_2 b1 tail hf => cases h; exact encodeBh2_decoded hf b1
    case h_3 b1 b2 tail hf => cases h; exact encodeBh3_decoded hf b1 b2
    case h_4 => cases h

/-- R142: `encode` of a decoded basic header gives its bytes back, or the 2-byte form of an id that a 3-byte
header spelled with third byte 0. -/
theorem encodeBh_of_decodeBh {bytes : List Byte} {form : BhForm} {fmt : Fmt} {csid : Nat}
    (h : decodeBh bytes = .ok (.bh form fmt csid, [])) :
    (form = .three ∧ csid ≤ 319 → encodeBh fmt.toNat csid =
      some [BitVec.ofNat 8 (fmt.toNat * 64), BitVec.ofNat 8 (csid - 64)]) ∧
    (¬(form = .three ∧ csid ≤ 319) → encodeBh fmt.toNat csid = some bytes) := by
  have hown := encodeForm_of_decodeBh h
  obtain ⟨hfmt, hw, _⟩ := encodeForm_some hown
  refine ⟨?_, fun hsmall => ?_⟩
  · rintro ⟨rfl, hhi⟩
    simp only [WireUnit.wf, Bool.and_eq_true, decide_eq_true_eq] at hw
    rw [encodeBh, if_neg (by omega), if_pos hhi, encodeBh2_eq, if_pos ⟨hfmt, hw.1, hhi⟩]
  · rw [encodeBh_eq_encodeForm, smallestForm_eq hw hsmall, hown]

end Sys2Proof
end

section
/-! SUPPORT. The basic-header operations run to their ends (41_basic_header.md R130 to R133), on any live
connection with enough bytes on RX, and the answers to the encoder calls (R138 to R141). -/

namespace Sys2Proof.Machine

/-! ### The decoder's operations -/

/-- R51 (a), (b): a read takes the bytes at the front of RX. -/
theorem reading_front {op : Op} {n : Nat} {s : State} {k : List Byte → State → State}
    {front rest : List Byte} (hrx : s.rxAvail = front ++ rest) (hn : front.length = n) :
    reading op n s k = .next (k front { s with rxAvail := rest, rxPos := s.rxPos + n }) := by
  rw [reading_enough (by simp [hrx, ← hn]), State.consumed, hrx, List.take_left' hn,
    List.drop_left' hn]

section
variable {s : State} (hl : s.fault.code = .noFault)
include hl

theorem enabled_bhB0 (hc : s.ckState = .bh0) : enabled .bhB0 s = true := by
  simp [enabled, State.live, hl, hc]

theorem enabled_selectBhx (hc : s.ckState = .bhx) {form : BhForm} (hf : s.bhForm = form) :
    enabled (selectBhx form) s = true := by
  cases form <;> simp [selectBhx, enabled, State.live, hl, hc, hf]

/-- R130: `BH.B0` on a first byte. -/
theorem exec_bhB0 (hc : s.ckState = .bh0) {b0 : Byte} {tail : List Byte}
    (hrx : s.rxAvail = b0 :: tail) :
    exec .bhB0 s = .next { s with
      bhB0 := b0
      bhFmt := fmtOf b0
      bhForm := formOf b0
      ckState := .bhx
      rxAvail := tail
      rxPos := s.rxPos + 1 } :=
  (if_pos (enabled_bhB0 hl hc)).trans (reading_front (front := [b0]) hrx rfl)

/-- R131 to R133: the operation of the form on the bytes that the form still has. -/
theorem exec_bhx (hc : s.ckState = .bhx) {form : BhForm} (hf : s.bhForm = form)
    {more rest : List Byte} (hrx : s.rxAvail = more ++ rest) (hn : more.length = form.size - 1) :
    exec (selectBhx form) s = .next { s with
      bhCsid := decodeCsid form s.bhB0 more
      ckState := .mh
      rxAvail := rest
      rxPos := s.rxPos + (form.size - 1) } := by
  have he := enabled_selectBhx hl hc hf
  cases form <;> exact (if_pos he).trans (reading_front hrx hn)

/-- R130 to R133: `BH.B0` and then the form's operation read the basic header that `decodeBh` reads. -/
theorem exec_basicHeader (hc : s.ckState = .bh0) {form : BhForm} {fmt : Fmt} {csid : Nat}
    {rest : List Byte} (hd : decodeBh s.rxAvail = .ok (.bh form fmt csid, rest)) :
    ∃ t u, exec .bhB0 s = .next t ∧ exec (selectBhx form) t = .next u ∧
      u.bhFmt = fmt ∧ u.bhCsid = BitVec.ofNat 17 csid ∧ u.rxAvail = rest ∧
      u.rxPos = s.rxPos + form.size := by
  obtain ⟨b0, tail, hrx, rfl, rfl, hn, rfl, hid⟩ := decodeBh_ok hd
  have hpos : s.rxPos + 1 + ((formOf b0).size - 1) = s.rxPos + (formOf b0).size := by
    have := (formOf b0).size_pos
    omega
  have hmore : tail = tail.take ((formOf b0).size - 1) ++ tail.drop ((formOf b0).size - 1) :=
    (List.take_append_drop _ tail).symm
  refine ⟨_, _, exec_bhB0 hl hc hrx, exec_bhx ?live rfl (form := formOf b0) rfl hmore
    (List.length_take_of_le hn), ?_⟩
  case live => exact hl
  exact ⟨rfl, hid, rfl, hpos⟩

/-- R142: what the encoder of a form writes is read back, and nothing after it. -/
theorem exec_encodeForm (hc : s.ckState = .bh0) {form : BhForm} {fmt csid : Nat}
    {bytes rest : List Byte} (hrx : s.rxAvail = bytes ++ rest)
    (h : encodeForm form fmt csid = some bytes) :
    ∃ t u, exec .bhB0 s = .next t ∧ exec (selectBhx form) t = .next u ∧
      u.bhFmt.toNat = fmt ∧ u.bhCsid.toNat = csid ∧ u.rxAvail = rest ∧
      u.rxPos = s.rxPos + form.size := by
  obtain ⟨hfmt, hw, _⟩ := encodeForm_some h
  obtain ⟨t, u, ht, hu, hf, hid, hrest, hpos⟩ :=
    exec_basicHeader hl hc (hrx ▸ decodeBh_encodeForm h rest)
  refine ⟨t, u, ht, hu, ?_, ?_, hrest, hpos⟩
  · rw [hf, BitVec.toNat_ofNat, Nat.mod_eq_of_lt (Nat.lt_succ_of_le hfmt)]
  · rw [hid, BitVec.toNat_ofNat, Nat.mod_eq_of_lt (bh_wf_lt hw)]

end

/-- Settles O23: each form's bytes are read back, and a decoded header is encoded to its own bytes in its own
form, which is the smallest but for the 3-byte form of an id up to 319. -/
theorem basicHeaderRoundTrip : Obligations.BasicHeaderRoundTrip := by
  refine ⟨fun s fmt csid bytes rest hl hc hrx => ⟨?_, ?_, ?_⟩,
    fun bytes form fmt csid h => encodeBh_of_decodeBh h⟩
  · exact exec_encodeForm (form := .one) hl hc hrx
  · exact exec_encodeForm (form := .two) hl hc hrx
  · exact exec_encodeForm (form := .three) hl hc hrx

/-- Settles O19: the fields of the byte as `div` and `mod`, or a short read. -/
theorem bhB0SelectsTheForm : Obligations.BhB0SelectsTheForm := by
  refine fun s hl hc => ⟨fun b rest hrx => ?_, fun hrx he => ?_⟩
  · rw [exec_bhB0 hl hc hrx, fmtOf_eq, formOf_eq]
  · exact exec_short_read (enabled_bhB0 hl hc) (by simp [hrx, readLen]) he

/-- Settles O20: the form has no further bytes, and the selector of a 1-byte header is at least 2. -/
theorem bh1TakesTheIdFromByteZero : Obligations.Bh1TakesTheIdFromByteZero := by
  refine fun s hl hc hf => ⟨?_, fun hform => ⟨(formOf_eq_one_iff s.bhB0).mp hform, by omega⟩⟩
  rw [← selOf_toNat]
  exact exec_bhx hl hc hf (more := []) rfl rfl

/-- Settles O21: the form's further bytes are read, or RX is too short for them. -/
theorem bh2AndBh3ReadTheIdBytes : Obligations.Bh2AndBh3ReadTheIdBytes := by
  refine fun s b c rest hl hc => ⟨fun hf hrx => ?_, fun hf hrx => ?_, fun hf => ?_, fun hf => ?_⟩
  · exact exec_bhx hl hc hf (more := [b]) hrx rfl
  · exact exec_bhx hl hc hf (more := [b, c]) hrx rfl
  · exact exec_short_read (enabled_selectBhx hl hc hf)
  · exact exec_short_read (enabled_selectBhx hl hc hf)

/-! ### The encoder calls -/

/-- R208: an answer is one event, the bytes where the operands are in range and a refusal elsewhere. -/
theorem State.answer_ite (s : State) (op : Op) (p : Prop) [Decidable p] (bytes : List Byte) :
    s.answer op (if p then some bytes else none) =
      { s with events := s.events ++ [if p then .encoded op bytes else .refusedCall op] } := by
  split <;> rfl

/-- Settles O22: the answers are those of `encodeBh1`, `encodeBh2` and `encodeBh3`, and `encode` chooses among
them. -/
theorem basicHeaderEncodersAnswerOrRefuse : Obligations.BasicHeaderEncodersAnswerOrRefuse := by
  refine fun s fmt csid => ⟨?_, ?_, ?_, rfl, encodeBh_eq_none_iff fmt csid⟩
  · rw [← State.answer_ite, ← encodeBh1_eq]
    rfl
  · rw [← State.answer_ite, ← encodeBh2_eq]
    rfl
  · rw [← State.answer_ite, ← encodeBh3_eq]
    rfl

end Sys2Proof.Machine
end

section
/-! SUPPORT. The message-header encoders as arithmetic (42_message_header.md R156 to R160), what each answers for
any numbers; and that encoding and decoding a message header undo each other (R161). -/

namespace Sys2Proof

/-! ### What the encoders answer (R156 to R160) -/

theorem encodeMh0_eq (ts len type msid : Nat) : encodeMh0 ts len type msid =
    if ts < 2 ^ 24 ∧ len < 2 ^ 24 ∧ type < 2 ^ 8 ∧ msid < 2 ^ 32 then
      some [BitVec.ofNat 8 (ts / 2 ^ 16), BitVec.ofNat 8 (ts / 2 ^ 8), BitVec.ofNat 8 ts,
        BitVec.ofNat 8 (len / 2 ^ 16), BitVec.ofNat 8 (len / 2 ^ 8), BitVec.ofNat 8 len,
        BitVec.ofNat 8 type,
        BitVec.ofNat 8 msid, BitVec.ofNat 8 (msid / 2 ^ 8), BitVec.ofNat 8 (msid / 2 ^ 16),
        BitVec.ofNat 8 (msid / 2 ^ 24)] else none := by
  simp only [encodeMh0, encMh0Ok_iff]
  rfl

theorem encodeMh1_eq (tsd len type : Nat) : encodeMh1 tsd len type =
    if tsd < 2 ^ 24 ∧ len < 2 ^ 24 ∧ type < 2 ^ 8 then
      some [BitVec.ofNat 8 (tsd / 2 ^ 16), BitVec.ofNat 8 (tsd / 2 ^ 8), BitVec.ofNat 8 tsd,
        BitVec.ofNat 8 (len / 2 ^ 16), BitVec.ofNat 8 (len / 2 ^ 8), BitVec.ofNat 8 len,
        BitVec.ofNat 8 type] else none := by
  simp only [encodeMh1, encMh1Ok_iff]
  rfl

theorem encodeMh2_eq (tsd : Nat) : encodeMh2 tsd =
    if tsd < 2 ^ 24 then
      some [BitVec.ofNat 8 (tsd / 2 ^ 16), BitVec.ofNat 8 (tsd / 2 ^ 8), BitVec.ofNat 8 tsd]
    else none := by
  simp only [encodeMh2, encMh2Ok_iff]
  rfl

/-! ### Decoding after encoding (R161) -/

/-- R161: the registers that a message header fills are the fields `ENC.MHfmt` was given. -/
theorem decodeHeader_of_encodeMh {fmt : Fmt} {h : MsgHeader} {bytes : List Byte}
    (hb : encodeMh fmt.toNat h = some bytes) :
    bytes.length = mhSize fmt ∧ decodeHeader fmt bytes = h := by
  obtain ⟨u, hk, rfl, rfl⟩ := encodeMh_some hb
  rw [BitVec.ofNat_toNat, BitVec.setWidth_eq] at hk
  have hlen := length_encodeUnit_mh hk
  have hread := wireUnitsReadBack u [] (wf_of_kind_mh hk)
  rw [hk, List.append_nil] at hread
  obtain ⟨_, _, hfields⟩ := decodeMh_ok hread
  exact ⟨hlen, by rwa [List.take_of_length_le hlen.le] at hfields⟩

/-! ### Encoding after decoding (R161) -/

/-- R156 to R159: the fields of a header unit are in range, so `ENC.MHfmt` answers with the unit's bytes. -/
theorem encodeMh_header {u : WireUnit} {fmt : Fmt} (hk : u.kind = .mh fmt) :
    encodeMh fmt.toNat u.header = some (encodeUnit u) := by
  cases u <;> cases hk
  case mh0 ts len type msid =>
    change encodeMh0 _ _ _ _ = _
    rw [encodeMh0_eq, if_pos ⟨ts.isLt, len.isLt, type.isLt, msid.isLt⟩, ofNat_eq_byte type rfl]
    rfl
  case mh1 tsd len type =>
    change encodeMh1 _ _ _ = _
    rw [encodeMh1_eq, if_pos ⟨tsd.isLt, len.isLt, type.isLt⟩, ofNat_eq_byte type rfl]
    rfl
  case mh2 tsd =>
    change encodeMh2 _ = _
    rw [encodeMh2_eq, if_pos tsd.isLt]
    rfl
  case mh3 => rfl

theorem be24_cons (a b c : Byte) (rest : List Byte) : be24 (a :: b :: c :: rest) =
    BitVec.ofNat 24 (a.toNat * 65536 + b.toNat * 256 + c.toNat) := rfl

theorem le32_cons (a b c d : Byte) (rest : List Byte) : le32 (a :: b :: c :: d :: rest) =
    BitVec.ofNat 32 (a.toNat + b.toNat * 2 ^ 8 + c.toNat * 2 ^ 16 + d.toNat * 2 ^ 24) := rfl

theorem toBe24_be24 (a b c : Byte) (rest : List Byte) :
    toBe24 (be24 (a :: b :: c :: rest)).toNat = [a, b, c] := by
  have ha := a.isLt
  have hb := b.isLt
  have hc := c.isLt
  rw [be24_cons, BitVec.toNat_ofNat, Nat.mod_eq_of_lt (by omega)]
  simp only [toBe24, List.cons.injEq, and_true]
  refine ⟨?_, ?_, ?_⟩ <;> apply BitVec.eq_of_toNat_eq <;> rw [BitVec.toNat_ofNat] <;> omega

theorem toLe32_le32 (a b c d : Byte) (rest : List Byte) :
    toLe32 (le32 (a :: b :: c :: d :: rest)).toNat = [a, b, c, d] := by
  have ha := a.isLt
  have hb := b.isLt
  have hc := c.isLt
  have hd := d.isLt
  rw [le32_cons, BitVec.toNat_ofNat, Nat.mod_eq_of_lt (by omega)]
  simp only [toLe32, List.cons.injEq, and_true]
  refine ⟨?_, ?_, ?_, ?_⟩ <;> apply BitVec.eq_of_toNat_eq <;> rw [BitVec.toNat_ofNat] <;> omega

/-- R161: what `decodeMh` takes a message header to be, is written as the bytes it was read from. -/
theorem encodeUnit_of_decodeMh {fmt : Fmt} {bytes : List Byte} (hn : bytes.length = mhSize fmt) :
    ∃ u : WireUnit, u.kind = .mh fmt ∧ u.header = decodeHeader fmt bytes ∧ encodeUnit u = bytes := by
  rcases fmt_cases fmt with rfl | rfl | rfl | rfl
  · match bytes, hn with
    | [a0, a1, a2, l0, l1, l2, y, m0, m1, m2, m3], _ =>
      refine ⟨.mh0 _ _ _ _, rfl, rfl, ?_⟩
      simp only [encodeUnit, List.drop_succ_cons, List.drop_zero, toBe24_be24, toLe32_le32]
      rfl
  · match bytes, hn with
    | [a0, a1, a2, l0, l1, l2, y], _ =>
      refine ⟨.mh1 _ _ _, rfl, rfl, ?_⟩
      simp only [encodeUnit, List.drop_succ_cons, List.drop_zero, toBe24_be24]
      rfl
  · match bytes, hn with
    | [a0, a1, a2], _ => exact ⟨.mh2 _, rfl, rfl, toBe24_be24 a0 a1 a2 []⟩
  · exact ⟨.mh3, rfl, rfl, (List.eq_nil_of_length_eq_zero hn).symm⟩

/-- R161: `ENC.MHfmt` of the fields that `MHfmt` reads in its bytes gives the bytes back. -/
theorem encodeMh_decodeHeader {fmt : Fmt} {bytes : List Byte} (hn : bytes.length = mhSize fmt) :
    encodeMh fmt.toNat (decodeHeader fmt bytes) = some bytes := by
  obtain ⟨u, hk, hh, rfl⟩ := encodeUnit_of_decodeMh hn
  rw [← hh, encodeMh_header hk]

end Sys2Proof
end

section
/-! SUPPORT. The message-header operations run to their ends (42_message_header.md R151 to R154), on any live
connection with enough bytes on RX, and the answers to the encoder calls (R156 to R160). -/

namespace Sys2Proof.Machine

section
variable {s : State} (hl : s.fault.code = .noFault) (hc : s.ckState = .mh) {fmt : Fmt}
  (hf : s.bhFmt = fmt)
include hl hc hf

theorem enabled_selectMh : enabled (selectMh fmt) s = true := by
  rcases fmt_cases fmt with rfl | rfl | rfl | rfl <;>
    simp [selectMh, enabled, State.live, hl, hc, hf]

/-- R151 to R154: the operation of the variant on the bytes of its header. -/
theorem exec_mh {front rest : List Byte} {h : MsgHeader} (hrx : s.rxAvail = front ++ rest)
    (hn : front.length = mhSize fmt) (hd : decodeHeader fmt front = h) :
    exec (selectMh fmt) s = .next { s with
      mh := h
      ckState := .payload
      rxAvail := rest
      rxPos := s.rxPos + mhSize fmt } := by
  have he := enabled_selectMh hl hc hf
  subst hd
  rcases fmt_cases fmt with rfl | rfl | rfl | rfl <;> exact (if_pos he).trans (reading_front hrx hn)

end

/-- Settles O28: the encoder's bytes are the variant's own, read back as its fields; and the fields of any bytes
of that number are written as these bytes. -/
theorem messageHeaderRoundTrip : Obligations.MessageHeaderRoundTrip := by
  refine ⟨fun s fmt h bytes rest hb hl hc hf hrx => ?_,
    fun bytes => ⟨encodeMh_decodeHeader (fmt := 0), encodeMh_decodeHeader (fmt := 1),
      encodeMh_decodeHeader (fmt := 2)⟩⟩
  obtain ⟨hn, hd⟩ := decodeHeader_of_encodeMh hb
  exact exec_mh hl hc hf hrx hn hd

/-- Settles O24: the fields of the 11 bytes, or a short read. -/
theorem mh0DecodesElevenBytes : Obligations.Mh0DecodesElevenBytes := by
  refine fun s hl hc hf => ⟨fun a0 a1 a2 l0 l1 l2 y m0 m1 m2 m3 rest hrx => ?_, ?_⟩
  · exact exec_mh hl hc hf hrx rfl rfl
  · exact exec_short_read (enabled_selectMh hl hc hf)

/-- Settles O25: the fields of the 7 bytes, or a short read. -/
theorem mh1DecodesSevenBytes : Obligations.Mh1DecodesSevenBytes := by
  refine fun s hl hc hf => ⟨fun a0 a1 a2 l0 l1 l2 y rest hrx => ?_, ?_⟩
  · exact exec_mh hl hc hf hrx rfl rfl
  · exact exec_short_read (enabled_selectMh hl hc hf)

/-- Settles O26: the field of the 3 bytes or a short read, and the header of no bytes. -/
theorem mh2AndMh3LeaveFieldsAbsent : Obligations.Mh2AndMh3LeaveFieldsAbsent := by
  refine fun s a0 a1 a2 rest hl hc => ⟨fun hf hrx => ?_, fun hf => ?_, fun hf => ?_⟩
  · exact exec_mh hl hc hf hrx rfl rfl
  · exact exec_mh hl hc hf (front := []) rfl rfl rfl
  · exact exec_short_read (enabled_selectMh hl hc hf)

/-- Settles O27: the answers are those of `encodeMh0`, `encodeMh1` and `encodeMh2`, and the last is always the
empty sequence. -/
theorem messageHeaderEncodersAnswerOrRefuse : Obligations.MessageHeaderEncodersAnswerOrRefuse := by
  refine fun s ts len type msid => ⟨?_, ?_, ?_, rfl⟩
  · rw [← State.answer_ite, ← encodeMh0_eq]
    rfl
  · rw [← State.answer_ite, ← encodeMh1_eq]
    rfl
  · rw [← State.answer_ite, ← encodeMh2_eq]
    rfl

end Sys2Proof.Machine
end

section
/-! SUPPORT. The payload operations run to their ends (43_chunk_reader.md R171, R172), on any live connection. -/

namespace Sys2Proof.Machine

/-- R173: a header that carries a length gives the payload that many bytes. -/
theorem State.payloadLength_of_present {s : State} {n : Word24} (h : s.mh.len = some n) :
    s.payloadLength = n.toNat := by
  simp [State.payloadLength, h]

section
variable {s : State} (hl : s.fault.code = .noFault) (hc : s.ckState = .payload)
include hl hc

theorem enabled_payloadLen {n : Word24} (hn : s.mh.len = some n) : enabled .payloadLen s = true := by
  simp [enabled, State.live, State.mhLenP, hl, hc, hn]

theorem enabled_payloadNone (hn : s.mh.len = none) : enabled .payloadNone s = true := by
  simp [enabled, State.live, State.mhLenP, hl, hc, hn]

end

/-- Settles O29: with the length present, RX holds that many bytes or the read is short; with the length absent,
nothing is read. -/
theorem payloadHasTheHeadersLength : Obligations.PayloadHasTheHeadersLength := by
  refine fun s hl hc => ⟨fun n hn hrx => ?_, fun n hn hrx he => ?_, fun hn => ?_⟩
  · rw [← State.payloadLength_of_present hn] at hrx ⊢
    exact (if_pos (enabled_payloadLen hl hc hn)).trans (reading_enough hrx)
  · rw [← State.payloadLength_of_present hn] at hrx
    exact exec_short_read (enabled_payloadLen hl hc hn) hrx he
  · exact if_pos (enabled_payloadNone hl hc hn)

end Sys2Proof.Machine
end

section
/-! SUPPORT. The operations of the inheritance engine run to their ends (44_demux.md R186 to R189), on any live
connection. -/

namespace Sys2Proof.Machine

section
variable {s : State} (hl : s.fault.code = .noFault)
include hl

theorem enabled_update (hc : s.ckState = .update) : enabled .update s = true := by
  simp [enabled, State.live, hl, hc]

/-- R189, R53: the chunk's entry is written. -/
theorem exec_update (hc : s.ckState = .update) (hid : s.entry < Config.cstEntries) :
    exec .update s = .next { s with cst := s.cst.write s.entry s.resType, ckState := .dispatch } :=
  (if_pos (enabled_update hl hc)).trans (if_pos hid)

variable (hc : s.ckState = .resolve)
include hc

theorem enabled_resolveDirect {y : Byte} (ht : s.mh.type = some y) :
    enabled .resolveDirect s = true := by
  simp [enabled, State.live, State.mhTypeP, hl, hc, ht]

theorem enabled_resolveInherit (ht : s.mh.type = none) : enabled .resolveInherit s = true := by
  simp [enabled, State.live, State.mhTypeP, hl, hc, ht]

/-- R186: the header's own type is taken. -/
theorem exec_resolveDirect {y : Byte} (ht : s.mh.type = some y) :
    exec .resolveDirect s = .next { s with resType := y, ckState := .update } := by
  refine (if_pos (enabled_resolveDirect hl hc ht)).trans ?_
  rw [ht]
  rfl

variable (ht : s.mh.type = none) (hid : s.entry < Config.cstEntries)
include ht hid

/-- R187: a valid entry gives its type. -/
theorem exec_resolveInherit_of_valid {y : Byte} (hr : s.cst.read s.entry = some y) :
    exec .resolveInherit s = .next { s with resType := y, ckState := .update } := by
  refine (if_pos (enabled_resolveInherit hl hc ht)).trans ((if_pos hid).trans ?_)
  rw [hr]

/-- R187, R188: an invalid entry raises ProtocolError. -/
theorem exec_resolveInherit_of_invalid (hr : s.cst.read s.entry = none) :
    exec .resolveInherit s = .next (s.raise .protocolError .resolveInherit) := by
  refine (if_pos (enabled_resolveInherit hl hc ht)).trans ((if_pos hid).trans ?_)
  rw [hr]

end

/-- R224, log 26: the record of a ProtocolError holds the id and keeps `fault.orderly`. -/
theorem State.raise_protocolError (s : State) (op : Op) :
    s.raise .protocolError op = { s with
      fault := ⟨.protocolError, s.hsState, s.ckState, op, s.bhCsid, s.fault.orderly⟩ } := rfl

/-- Settles O30: one equation of `exec` for a type in the header, for a valid entry and for an invalid one. -/
theorem resolveTakesHeaderOrEntryType : Obligations.ResolveTakesHeaderOrEntryType :=
  fun _ _ hl hc =>
    ⟨exec_resolveDirect hl hc, fun ht hid => exec_resolveInherit_of_valid hl hc ht hid,
      exec_resolveInherit_of_invalid hl hc⟩

/-- Settles O31: the miss raises, and the record it writes holds the id. -/
theorem resolveMissRaisesProtocolError : Obligations.ResolveMissRaisesProtocolError := by
  intro s hl hc ht hid hr
  rw [exec_resolveInherit_of_invalid hl hc ht hid hr, State.raise_protocolError, hc]

/-- Settles O32: the file written is that of `Memory.write`, whose reads and canonical form are known. -/
theorem updateWritesOneEntry : Obligations.UpdateWritesOneEntry := fun s hl hc hid =>
  ⟨s.cst.write s.entry s.resType, exec_update hl hc hid, Memory.read_write_same _ _ _,
    fun i hi => Memory.read_write_other _ _ i _ hi, Memory.wf_write _ _ _ hid⟩

end Sys2Proof.Machine
end

section
/-! SUPPORT. What changes the register file (10_state.md R27, 44_demux.md R190): of the operations `UPDATE`
alone, and of what the outside does nothing but a reset. -/

namespace Sys2Proof.Machine

/-- The register file of `t` is that of `s`, or `s` stands at `UPDATE` and `t` has its write (R189). -/
def State.UpdatesEntry (s t : State) : Prop :=
  t.cst = s.cst ∨ (s.ckState = .update ∧ t.cst = s.cst.write s.entry s.resType)

/-- R27, R53: what one write of the register file does to entry `n`. -/
theorem State.UpdatesEntry.read_cases {s t : State} (h : s.UpdatesEntry t) (n : Nat) :
    t.cst.read n = s.cst.read n ∨
      (s.ckState = .update ∧ s.entry = n ∧ t.cst.read n = some s.resType) := by
  rcases h with h | ⟨hc, h⟩
  · exact .inl (by rw [h])
  · rw [h]
    by_cases hn : n = s.entry
    · subst hn
      exact .inr ⟨hc, rfl, Memory.read_write_same _ _ _⟩
    · exact .inl (Memory.read_write_other _ _ _ _ hn)

/-- R190: of the completed operations `UPDATE` alone writes the register file. -/
theorem Completes.updatesEntry {i : Instr} {s t : State} (h : Completes s i t) : s.UpdatesEntry t := by
  cases h
  case update hc _ => exact .inr ⟨hc, rfl⟩
  all_goals exact .inl rfl

/-- R190, R225: an operation that waits, is answered or raises leaves the register file. -/
theorem ExecNext.updatesEntry {i : Instr} {s t : State} (h : ExecNext i s t) : s.UpdatesEntry t := by
  cases h with
  | waits | answers => exact .inl rfl
  | raises u c hl hu =>
    obtain ⟨_, _, _, _, _, hcst⟩ := hu.sameChunk
    exact .inl hcst
  | completes t hl ht => exact ht.updatesEntry

/-- R31: the outside touches no register file. -/
theorem OutsideOnly.cst_eq {s t : State} (h : OutsideOnly s t) : t.cst = s.cst := by
  rw [h]

/-- R31: what the outside does before and after an operation is no part of its update. -/
theorem State.UpdatesEntry.between {s u v t : State} (hu : OutsideOnly s u) (h : u.UpdatesEntry v)
    (ht : OutsideOnly v t) : s.UpdatesEntry t := by
  unfold State.UpdatesEntry at h ⊢
  rw [ht.cst_eq]
  rw [hu] at h
  exact h

/-- R190: a step of a live connection that is no reset leaves the register file, or is its `UPDATE`. -/
theorem step_updatesEntry {s t : State} (hl : s.fault.code = .noFault) (hr : s.noReset)
    (hstep : step s = .next t) : s.UpdatesEntry t := by
  cases step_stepNext hstep with
  | releases hc => exact absurd hl hc
  | resets rx rest he => exact absurd he (hr rx rest)
  | acts t h => exact .inl h.cst_eq
  | refuses u op h => exact .inl h.cst_eq
  | runs i u v t hu hv ht => exact .between hu hv.updatesEntry ht

/-- Settles O51: a step writes at most the entry of its own `UPDATE`, and a write is read back there and nowhere
else. -/
theorem entriesChangeOnlyByTheirOwnUpdate : Obligations.EntriesChangeOnlyByTheirOwnUpdate :=
  fun _ _ n hl hr hstep => (step_updatesEntry hl hr hstep).read_cases n

end Sys2Proof.Machine
end

section
/-! SUPPORT. Dispatch, the host port and the answer to a host call (45_session.md R201 to R208): what each does
on a live connection at its own control state, and what the handler window refuses (60_exceptions.md R223). -/

namespace Sys2Proof.Machine

/-! ### The answer to a host call (R208) -/

/-- R208, log 28: the block's turn with a call pending waits with it, or runs its operation. -/
theorem State.turn_of_call {s : State} {call : HostCall} {rest : List HostCall}
    (hq : s.hostQ = call :: rest) :
    s.turn = if blocked call.toInstr s then .next s else exec call.toInstr { s with hostQ := rest } := by
  rw [State.turn, hq]

/-- Settles O4: with nothing scheduled the step is the block's turn, and the pending call comes first there. -/
theorem stepAnswersAHostCall : Obligations.StepAnswersAHostCall := by
  intro s call rest hl he hq
  rw [step_env_nil hl he, State.turn_of_call hq]
  exact ⟨fun hb => if_neg (by simp [hb]), fun hb => if_pos hb⟩

/-! ### Dispatch (R201, R202) -/

section
variable {s : State} (hl : s.fault.code = .noFault) (hc : s.ckState = .dispatch)
include hl hc

/-- R201: at `CK_DISPATCH` a known type is delivered. -/
theorem enabled_dispatch (hk : s.resType ∈ s.knownTypes) : enabled .dispatch s = true := by
  simp [enabled, State.live, hl, hc, s.known_iff.mpr hk]

/-- R202: at `CK_DISPATCH` an unknown type is dropped. -/
theorem enabled_drop (hk : s.resType ∉ s.knownTypes) : enabled .drop s = true := by
  have hk : s.known = false := Bool.eq_false_iff.mpr (mt s.known_iff.mp hk)
  simp [enabled, State.live, hl, hc, hk]

end

/-- Settles O33: `KNOWN_TYPES` decides which of the two is enabled, and each is one update of the state. -/
theorem dispatchDeliversOrDrops : Obligations.DispatchDeliversOrDrops := fun _ hl hc =>
  ⟨fun hk => if_pos (enabled_dispatch hl hc hk), fun hk => if_pos (enabled_drop hl hc hk)⟩

/-! ### The handler window (R203 to R206) -/

/-- R7: the HTX port is open exactly on a live connection whose handler runs. -/
theorem State.htxOpen_iff (s : State) :
    s.htxOpen = true ↔ s.fault.code = .noFault ∧ s.ckState = .handler := by
  simp [State.htxOpen, State.live]

/-- R7, R208: outside the window the port is closed. -/
theorem State.htxOpen_eq_false {s : State} (h : s.fault.code ≠ .noFault ∨ s.ckState ≠ .handler) :
    s.htxOpen = false :=
  Bool.eq_false_iff.mpr fun ho => h.elim (· (s.htxOpen_iff.mp ho).1) (· (s.htxOpen_iff.mp ho).2)

theorem flushing_ready {op : Op} {s : State} {k : State → State} (ho : s.txFlushOk = true)
    (hr : s.txFlushReady = true) : flushing op s k = .next (k s.flushed) := by
  rw [flushing, State.txFlush_ready ho hr]

/-! The "Enabled when" of the port's three operations is `htxOpen` by definition, so an open port enables them. -/

section
variable {s : State} (h : s.htxOpen = true)
include h

/-- R203: in the window a host write is a `TxWrite` of its bytes. -/
theorem exec_htxWrite_of_open (bytes : List Byte) :
    exec (.htxWrite bytes) s = writing .htxWrite bytes s s id := if_pos h

/-- R204: in the window a host flush is a `TxFlush`. -/
theorem exec_htxFlush_of_open : exec .htxFlush s = flushing .htxFlush s id := if_pos h

/-- R206: `RETURN` goes to the next chunk. -/
theorem exec_ret_of_open : exec .ret s = .next { s with ckState := .bh0 } := if_pos h

end

/-- Settles O34: the write is a `TxWrite`, which appends, and of no bytes does nothing. -/
theorem htxWriteAppendsTheHostsBytes : Obligations.HtxWriteAppendsTheHostsBytes := by
  intro s bytes hl hc
  rw [exec_htxWrite_of_open (s.htxOpen_iff.mpr ⟨hl, hc⟩)]
  refine ⟨fun hb ho hr => writing_ready hb ho hr, fun hb => ?empty⟩
  case empty =>
    subst hb
    rfl

/-- Settles O35: the flush is a `TxFlush` on a ready transport, and `RETURN` touches `ck_state` alone. -/
theorem htxFlushAndReturn : Obligations.HtxFlushAndReturn := fun s hl hc =>
  have h : s.htxOpen = true := s.htxOpen_iff.mpr ⟨hl, hc⟩
  ⟨fun ho hr => (exec_htxFlush_of_open h).trans (flushing_ready ho hr), exec_ret_of_open h⟩

/-! ### Outside the window (R208, R223) -/

/-- R208, R223: a host call that is not enabled is refused in the record; an encoder always is enabled (R231). -/
theorem exec_call_of_not_enabled {i : Instr} {s : State} (ho : i.own = false)
    (h : enabled i s = false) : exec i s = .next (s.log (.refusedCall i.op)) := by
  have hn : ¬ enabled i s = true := by simp [h]
  cases i
  case htxWrite | htxFlush | ret => exact if_neg hn
  case encBh1 | encBh2 | encBh3 | encMh0 | encMh1 | encMh2 | encMh3 => cases h
  all_goals cases ho

section
variable {s : State} {call : HostCall} {rest : List EnvEvent} (he : s.env = .htx call :: rest)
include he

/-- R7: a call over the closed port is refused. -/
theorem step_htx_of_closed (hr : s.fault.code = .noFault ∨ s.released = true)
    (hw : s.htxOpen = false) :
    step s = .next { s with env := rest, events := s.events ++ [.refusedCall call.toInstr.op] } := by
  have hn : ¬ s.htxOpen = true := by simp [hw]
  exact (step_env_act hr he nofun).trans (congrArg _ (if_neg hn))

/-- R7: a call over the open port is queued. -/
theorem step_htx_of_open (hl : s.fault.code = .noFault) (hw : s.htxOpen = true) :
    step s = .next { s with env := rest, hostQ := s.hostQ ++ [call] } :=
  (step_env_act (.inl hl) he nofun).trans (congrArg _ (if_pos hw))

end

/-- Settles O36: a closed window disables the three operations of the HTX port and closes the port itself, and
an open one takes the call. -/
theorem hostCallsOutsideTheWindowAreRefused : Obligations.HostCallsOutsideTheWindowAreRefused := by
  intro s bytes call rest
  refine ⟨fun h => ?closed, fun hl hc he => ?taken⟩
  case closed =>
    have hw : s.htxOpen = false := State.htxOpen_eq_false h
    exact ⟨exec_call_of_not_enabled rfl hw, exec_call_of_not_enabled rfl hw,
      exec_call_of_not_enabled rfl hw, fun he hr => step_htx_of_closed he hr hw⟩
  case taken => exact step_htx_of_open he hl (s.htxOpen_iff.mpr ⟨hl, hc⟩)

end Sys2Proof.Machine
end

section
/-! SUPPORT. The modes and the end of a connection (60_exceptions.md R226, R231; 70_reset_and_hazards.md R267):
what each mode says of the registers, and what a step does on an ended connection. -/

namespace Sys2Proof.Machine

/-! ### The modes (R231) -/

theorem State.mode_eq_session_iff (s : State) :
    s.mode = .session ↔ s.fault.code = .noFault ∧ s.ckState ≠ .idle := by
  unfold State.mode
  split_ifs <;> simp [*]

theorem State.mode_eq_handshake_iff (s : State) :
    s.mode = .handshake ↔ s.fault.code = .noFault ∧ s.ckState = .idle := by
  unfold State.mode
  split_ifs <;> simp [*]

theorem State.mode_eq_failed_iff (s : State) : s.mode = .failed ↔ s.fault.code ≠ .noFault := by
  unfold State.mode
  split_ifs <;> simp [*]

/-- R22: no `ck_state` has `CK_IDLE` for a successor. -/
theorem idle_notMem_successors (c : CkState) : CkState.idle ∉ c.successors := by
  cases c <;> decide

/-- R22, R38: a step of a live connection that is no reset does not come to `CK_IDLE` from elsewhere. -/
theorem ckState_ne_idle_of_step {s t : State} (hl : s.fault.code = .noFault) (hr : s.noReset)
    (h : step s = .next t) (hc : s.ckState ≠ .idle) : t.ckState ≠ .idle := by
  rcases controlStateAdvancesInOrder s t hl hr h with ⟨_, hk | hk⟩ | ⟨_, hk⟩
  · rwa [hk]
  · exact fun ht => idle_notMem_successors s.ckState (ht ▸ hk)
  · rwa [hk]

/-- R23, R226: a step of an ended connection that is no reset keeps the fault register. -/
theorem fault_eq_of_step {s t : State} (hc : s.fault.code ≠ .noFault) (hr : s.noReset)
    (h : step s = .next t) : t.fault = s.fault := by
  by_contra hne
  obtain ⟨rx, rest, he, _⟩ := failedModeIsLeftOnlyByReset s t hc h hne
  exact hr rx rest he

/-- Settles O49: HANDSHAKE may be left into either other mode, SESSION not into `CK_IDLE`, and FAILED keeps its
fault register. -/
theorem modesChangeOnlyForward : Obligations.ModesChangeOnlyForward := by
  intro s t hr hstep
  cases hm : s.mode with
  | handshake => cases t.mode <;> simp
  | session =>
    obtain ⟨hl, hc⟩ := s.mode_eq_session_iff.mp hm
    have ht : t.mode ≠ .handshake := fun h =>
      ckState_ne_idle_of_step hl hr hstep hc (t.mode_eq_handshake_iff.mp h).2
    cases hk : t.mode with
    | handshake => exact absurd hk ht
    | session => exact .inl rfl
    | failed => exact .inr (.inr ⟨rfl, rfl⟩)
  | failed =>
    have hc := s.mode_eq_failed_iff.mp hm
    exact .inl (t.mode_eq_failed_iff.mpr (fault_eq_of_step hc hr hstep ▸ hc))

/-! ### The end of a connection (R226, R267) -/

/-- R226: the first step after a fault is the release. -/
theorem step_of_release_due {s : State} (hc : s.fault.code ≠ .noFault) (hr : s.released = false) :
    step s = .next s.release := if_pos ⟨hc, hr⟩

section
variable {s : State} (hq : s.hostQ = [])
include hq

/-- R267: the turn of a connection that IoError has ended, with no host call pending. -/
theorem State.turn_of_ioError (hc : s.fault.code = .ioError) : s.turn = .fault .ioError := by
  simp only [State.turn, hq, hc]

/-- R267: the turn of a connection that ProtocolError has ended, with no host call pending. -/
theorem State.turn_of_protocolError (hc : s.fault.code = .protocolError) :
    s.turn = .fault .protocolError := by
  simp only [State.turn, hq, hc]

end

/-- Settles O43: the release touches none of these fields, and after it, with nothing scheduled, the step is a
turn that finds the run ended. -/
theorem endedConnectionIsReleased : Obligations.EndedConnectionIsReleased := by
  intro s hc
  refine ⟨fun hr => ⟨s.release, step_of_release_due hc hr, ?kept⟩, fun hr he hq => ?ended⟩
  case kept => exact ⟨rfl, rfl, rfl, rfl, rfl, rfl, rfl, rfl, rfl, rfl, rfl, rfl, rfl⟩
  case ended =>
    rw [step_env_nil (.inr hr) he]
    exact ⟨State.turn_of_ioError hq, State.turn_of_protocolError hq⟩

end Sys2Proof.Machine
end

section
/-! SUPPORT. The I/O deadline (60_exceptions.md R237; 40_handshake.md R118): the waiting operation on the failing
primitive, and what of its answer a step keeps. -/

namespace Sys2Proof.Machine

/-! ### The failing primitive -/

/-- The state on which an expiring deadline runs the waiting operation `i`: the deadline and a pending call are
used up, and the primitive in which `i` waits answers IoError (log 16). -/
def State.timedOut (s : State) (i : Instr) (rest : List EnvEvent) : State :=
  { State.primitiveFails i { s with env := rest } with hostQ := s.hostQ.tail }

theorem State.outsideOnly_timedOut (s : State) (i : Instr) (rest : List EnvEvent) :
    OutsideOnly s (s.timedOut i rest) := rfl

/-- Writes fail for an operation that waits in its `TxWrite` only (R237). -/
theorem State.timedOut_txOk (s : State) (i : Instr) (rest : List EnvEvent) :
    (s.timedOut i rest).txOk = (s.txOk && !s.txWaits (writeBytes i s)) := rfl

/-- No operation's buffer depends on the streams or the queue (R112, R113, R115). -/
theorem OutsideOnly.withBuffer_eq {s u : State} (h : OutsideOnly s u) (i : Instr) :
    u.withBuffer i = { u with
      s0 := (s.withBuffer i).s0, s1 := (s.withBuffer i).s1, s2 := (s.withBuffer i).s2 } := by
  rw [h]
  cases i <;> rfl

/-- R60, R112, R113, R115: an operation with nothing to write sets no buffer. -/
theorem State.withBuffer_of_writes_nothing {i : Instr} {s : State} (h : writeBytes i s = []) :
    s.withBuffer i = s := by
  cases i
  case hsS0 => exact absurd h (List.cons_ne_nil _ _)
  case hsS1 => exact absurd h (encodePacket_ne_nil _ _ _)
  case hsS2 => exact absurd h s.s2Bytes_ne_nil
  all_goals rfl

/-- R204, R221: an operation that only flushes raises IoError where the flush fails. -/
theorem exec_failed_flush_alone {i : Instr} {s : State} (h : enabled i s = true)
    (hf : flushes i = true) (hb : writeBytes i s = []) (hn : s.txFlushOk = false) :
    exec i s = .next (s.raise .ioError i.op) := by
  cases streamUse h with
  | reads _ _ hf' | writes _ _ hf' | neither _ _ hf' => exact absurd (hf.symm.trans hf') nofun
  | writesAndFlushes k _ hw => exact absurd hb hw
  | onlyFlushes k _ _ hx => exact hx.trans (flushing_fails hn)

/-- R224, R237: an IoError on an RX in error is not orderly. -/
theorem State.raise_ioError_of_rx_failed {s : State} (h : s.rxEnd = .failed) (op : Op) :
    s.raise .ioError op =
      { s with fault := ⟨.ioError, s.hsState, s.ckState, op, s.fault.csid, false⟩ } := by
  simp [State.raise, State.orderlyEnd, h]

/-! ### The step -/

section
variable {s : State} {i : Instr} {rest : List EnvEvent}

/-- R237: with no `IO_DEADLINE` nothing happens. -/
theorem State.expire_of_none (h : s.ioDeadline = none) : s.expire = s := by
  rcases s.expire_cases with hx | ⟨_, _, _, _, hd, _⟩
  · exact hx
  · simp [h] at hd

variable (hl : s.fault.code = .noFault) (he : s.env = .deadline :: rest) (hi : s.nextOp = .ok i)
  (hb : blocked i s = true) (hd : s.ioDeadline.isSome = true)
include hl he hi hb hd

/-- R237: where the waiting operation raises IoError in `v`, the step leaves `v` with the exception's record,
the transport being as before. -/
theorem step_deadline_of_raise {v : State}
    (hx : exec i (s.timedOut i rest) = .next (v.raise .ioError i.op)) (hv : v.rxEnd = .failed) :
    step s = .next { v with
      rxEnd := s.rxEnd
      txOk := s.txOk
      txFlushOk := s.txFlushOk
      fault := ⟨.ioError, v.hsState, v.ckState, i.op, v.fault.csid, false⟩ } := by
  rw [step_env_act (.inl hl) he nofun, State.apply]
  have hn : State.nextOp { s with env := rest } = .ok i := hi
  have hc : (s.ioDeadline.isSome && blocked i { s with env := rest }) = true := by
    rw [hd]
    exact hb
  unfold State.timedOut at hx
  simp only [State.expire, hn, hc, hx, if_true, State.raise_ioError_of_rx_failed hv]

/-- R51, R237: at a read the exception is all that happens. -/
theorem step_deadline_at_read (h : s.rxWaits (readLen i s) = true) : step s = .next
    { s with
      env := rest
      hostQ := s.hostQ.tail
      fault := ⟨.ioError, s.hsState, s.ckState, i.op, s.fault.csid, false⟩ } := by
  obtain ⟨hen, _⟩ := blocked_cases hb
  simp only [State.rxWaits, Bool.and_eq_true, decide_eq_true_eq] at h
  obtain ⟨⟨_, hshort⟩, _⟩ := h
  have hx : exec i (s.timedOut i rest) = .next ((s.timedOut i rest).raise .ioError i.op) :=
    exec_short_read hen hshort nofun
  exact step_deadline_of_raise hl he hi hb hd hx rfl

/-- R52, R237: at a write the buffer is set and some part of the bytes is sent. -/
theorem step_deadline_at_write (h : s.txWaits (writeBytes i s) = true) :
    ∃ part, part <+: writeBytes i s ∧ step s = .next
      { s.withBuffer i with
        env := rest
        hostQ := s.hostQ.tail
        events := s.events ++ [.txPart part]
        fault := ⟨.ioError, s.hsState, s.ckState, i.op, s.fault.csid, false⟩ } := by
  obtain ⟨hen, _⟩ := blocked_cases hb
  have hne : writeBytes i s ≠ [] := fun hw => by simp [hw, State.txWaits_nil] at h
  have hok : (s.timedOut i rest).txOk = false := by simp [State.timedOut_txOk, h]
  obtain ⟨part, hp, hx⟩ := exec_failed_write (s := s.timedOut i rest) hen hne hok
  rw [(s.outsideOnly_timedOut i rest).withBuffer_eq i] at hx
  refine ⟨part, hp, (step_deadline_of_raise hl he hi hb hd hx rfl).trans ?_⟩
  rw [s.withBuffer_eq i]
  rfl

/-- R65, R118, R237: at a flush the buffer is set and the write before it stands. -/
theorem step_deadline_at_flush (hr : s.rxWaits (readLen i s) = false)
    (hw : s.txWaits (writeBytes i s) = false) : step s = .next
      { s.withBuffer i with
        env := rest
        hostQ := s.hostQ.tail
        txPending := s.txPending ++ writeBytes i s
        txPos := s.txPos + (writeBytes i s).length
        events := s.events ++ (if writeBytes i s = [] then [] else [.tx (writeBytes i s)])
        fault := ⟨.ioError, s.hsState, s.ckState, i.op, s.fault.csid, false⟩ } := by
  obtain ⟨hen, hwait⟩ := blocked_cases hb
  rw [hr, hw] at hwait
  obtain ⟨hf, hok, _⟩ : flushes i = true ∧ _ ∧ _ := by simpa using hwait
  by_cases hne : writeBytes i s = []
  · have hx : exec i (s.timedOut i rest) = .next ((s.timedOut i rest).raise .ioError i.op) :=
      exec_failed_flush_alone hen hf hne rfl
    rw [step_deadline_of_raise hl he hi hb hd hx rfl, State.withBuffer_of_writes_nothing hne, hne]
    simp [State.timedOut, State.primitiveFails]
  · have hok : s.txOk = true := by simpa [hne] using hok
    have hready : s.txReady = true := by simpa [State.txWaits, hne, hok] using hw
    have htx : (s.timedOut i rest).txOk = true := by simp [State.timedOut_txOk, hok, hw]
    have hx := exec_failed_flush (s := s.timedOut i rest) hen hf hne htx hready rfl
    rw [(s.outsideOnly_timedOut i rest).withBuffer_eq i] at hx
    rw [step_deadline_of_raise hl he hi hb hd hx rfl, s.withBuffer_eq i, if_neg hne]
    rfl

end

/-- Settles O41: with no deadline set the event does nothing; with one set the operation runs into the failing
primitive, which is its read, its write or its flush. -/
theorem deadlineEndsAWait : Obligations.DeadlineEndsAWait := by
  intro s i rest hl he hi hb
  refine ⟨fun hd => ?none, fun hd => ⟨step_deadline_at_read hl he hi hb hd,
    step_deadline_at_write hl he hi hb hd, step_deadline_at_flush hl he hi hb hd⟩⟩
  case none =>
    rw [step_env_act (.inl hl) he nofun]
    exact congrArg _ (State.expire_of_none (s := { s with env := rest }) hd)

end Sys2Proof.Machine
end

section
/-! SUPPORT. Reset and every new connection (10_state.md R35, 70_reset_and_hazards.md R250 to R252). -/

namespace Sys2Proof.Machine

/-- Settles O2: with no release due, a scheduled `rst` is an act of the outside, and what it leaves is
`State.newConnection`, which drops it from the schedule. -/
theorem rstStartsANewConnection : Obligations.RstStartsANewConnection := by
  intro s rx rest he hr
  calc step s = .next (State.apply { s with env := rest } (.rst rx)) := step_env_act hr he nofun
    _ = .next (State.newConnection { s with env := rest } rx) := rfl

/-- R63, R121: a new connection stands at the start of both streams. -/
theorem State.newConnection_handshakePositions (s : State) (rx : List Byte) :
    (s.newConnection rx).handshakePositions := fun _ _ => ⟨rfl, rfl⟩

/-- R30, R31: a new connection has an empty TX record. -/
theorem State.newConnection_txRecord (s : State) (rx : List Byte) : (s.newConnection rx).txRecord :=
  ⟨rfl, rfl⟩

/-- R251: reset and a new connection differ in nothing the invariant speaks of. -/
theorem State.reset_inv : State.reset.Inv := { State.newConnection_inv State.reset [] with }

/-- Settles O44: `CK_IDLE`, an empty register file and buffers of their sizes give the invariant; both
positions are 0 and the record is empty. -/
theorem resetMeetsTheInvariant : Obligations.ResetMeetsTheInvariant := fun s rx =>
  ⟨⟨State.reset_inv, State.newConnection_handshakePositions State.reset [],
      State.newConnection_txRecord State.reset []⟩,
    s.newConnection_inv rx, s.newConnection_handshakePositions rx, s.newConnection_txRecord rx⟩

end Sys2Proof.Machine
end
